-- ==== Sys2Proof/Word.lean ====
section
/-!
DEFINITION. The word types of SFXB (00_scope.md R8, R10; 30_encoding.md R72). A binary32 or binary64 value is held
as its IEEE 754 bit pattern; the arithmetic on the patterns is `Sys2Proof/Machine/Float.lean`.
-/

namespace Sys2Proof

/-- One byte, as `so_byte` carries it (30_encoding.md R70). -/
abbrev Byte := BitVec 8

/-- A 32-bit word: a `u32`, or a parameter register whose kind is not fixed (10_state.md R21). -/
abbrev Word32 := BitVec 32

/-- A 64-bit word: a `u64`, or `rsp_data` (30_encoding.md R72). -/
abbrev Word64 := BitVec 64

/-- The bit pattern of a binary32 value (00_scope.md R10). -/
abbrev F32 := BitVec 32

/-- The bit pattern of a binary64 value (00_scope.md R10). -/
abbrev F64 := BitVec 64

/-- One 80-bit command word (30_encoding.md R72). -/
abbrev CommandWord := BitVec 80

end Sys2Proof
end

