-- ==== Sys2Proof/Syntax.lean ====
section
/-!
DEFINITION. The 25 commands of SFXB, one constructor per row of spec/opcode_table.json (30_encoding.md R74), and the
five operand forms (R73). An operand is the field as it stands, so every operand is a bit vector of its field's width.
-/

namespace Sys2Proof

/-- The operand forms of 30_encoding.md R73: which fields of the command word carry operands. -/
inductive Form where
  /-- No operand. -/
  | n
  /-- `idx` only. -/
  | i
  /-- `data[31:0]` only. -/
  | d32
  /-- `idx` and `data[31:0]`. -/
  | id32
  /-- `data[63:0]`. -/
  | d64
deriving DecidableEq, Repr

/-- A command of SFXB (30_encoding.md R74). -/
inductive Instr where
  /-- NOP (40_system_and_parameters.md R91). -/
  | nop
  /-- RESET (R96). -/
  | reset
  /-- STATUS_READ (R92). -/
  | statusRead
  /-- ERR_CLEAR (R93). -/
  | errClear
  /-- STATE_READ of a state number (R94). -/
  | stateRead (number : BitVec 8)
  /-- MEM_READ of a word index of the space with a code (R95). -/
  | memRead (space : BitVec 8) (index : Word32)
  /-- PARAM_WRITE of a value to a parameter number (R97). -/
  | paramWrite (number : BitVec 8) (value : Word32)
  /-- PARAM_READ of a parameter number (R98). -/
  | paramRead (number : BitVec 8)
  /-- RNG_SEED with a 64-bit seed (41_rng.md R111). -/
  | rngSeed (seed : Word64)
  /-- RNG_NEXT64 (R114). -/
  | rngNext64
  /-- RNG_NEXT32 (R115). -/
  | rngNext32
  /-- RNG_NEXTF (R116). -/
  | rngNextF
  /-- PINK_NEXTV (42_pink_noise.md R124). -/
  | pinkNextV
  /-- PINK_NEXTF (R125). -/
  | pinkNextF
  /-- ACC_CLEAR (43_accumulator.md R131). -/
  | accClear
  /-- ACC_APPEND of a binary32 sample (R132). -/
  | accAppend (sample : F32)
  /-- ACC_SIZE (R133). -/
  | accSize
  /-- ACC_READ of a sample index (R134). -/
  | accRead (index : Word32)
  /-- ACC_SCALE by a binary32 factor (R135). -/
  | accScale (factor : F32)
  /-- ACC_PEAKMEAN (R136). -/
  | accPeakMean
  /-- ACC_READ_PCM of a sample index in the format with a code (R139). -/
  | accReadPcm (format : BitVec 8) (index : Word32)
  /-- ACC_STREAM in the format with a code (R140). -/
  | accStream (format : BitVec 8)
  /-- SYNTH_START (44_synth_control.md R151). -/
  | synthStart
  /-- SYNTH_STEP (R171). -/
  | synthStep
  /-- SYNTH_RUN (R172). -/
  | synthRun
deriving DecidableEq, Repr

end Sys2Proof
end

