-- ==== Sys2Proof/WellFormed.lean ====
section
/-!
DEFINITION. Which command words and which commands are well formed. A command word is well formed when it matches a
row of the opcode table by the table's own match and mask (30_encoding.md R74, R75); the decoder is written
field by field instead (R72, R73), so that the two can be compared. A command is well formed when its operands fit
their fields; the operand types make that hold of every command.
-/

namespace Sys2Proof

/-- One row of the opcode table: a word `w` selects it when `w & mask = bits` (30_encoding.md R74). -/
structure TableRow where
  mnemonic : String
  form : Form
  bits : CommandWord
  mask : CommandWord
deriving DecidableEq, Repr

/-- The must-be-zero and opcode bits of each form (30_encoding.md R74, "Masks by form"). -/
def Form.mask : Form → CommandWord
  | .n => 0xFFFFFFFFFFFFFFFFFFFF#80
  | .i => 0xFF00FFFFFFFFFFFFFFFF#80
  | .d32 => 0xFFFFFFFFFFFF00000000#80
  | .id32 => 0xFF00FFFFFFFF00000000#80
  | .d64 => 0xFFFF0000000000000000#80

/-- A row whose match is the opcode in bits 79:72 and zero elsewhere (30_encoding.md R74). -/
def tableRow (mnemonic : String) (form : Form) (op : BitVec 8) : TableRow :=
  { mnemonic := mnemonic, form := form, bits := op ++ 0#72, mask := form.mask }

/-- The opcode table (30_encoding.md R74). -/
def opcodeTable : List TableRow :=
  [
    tableRow "NOP" .n 0x00#8,
    tableRow "RESET" .n 0x01#8,
    tableRow "STATUS_READ" .n 0x02#8,
    tableRow "ERR_CLEAR" .n 0x03#8,
    tableRow "STATE_READ" .i 0x04#8,
    tableRow "MEM_READ" .id32 0x05#8,
    tableRow "PARAM_WRITE" .id32 0x10#8,
    tableRow "PARAM_READ" .i 0x11#8,
    tableRow "RNG_SEED" .d64 0x20#8,
    tableRow "RNG_NEXT64" .n 0x21#8,
    tableRow "RNG_NEXT32" .n 0x22#8,
    tableRow "RNG_NEXTF" .n 0x23#8,
    tableRow "PINK_NEXTV" .n 0x24#8,
    tableRow "PINK_NEXTF" .n 0x25#8,
    tableRow "ACC_CLEAR" .n 0x30#8,
    tableRow "ACC_APPEND" .d32 0x31#8,
    tableRow "ACC_SIZE" .n 0x32#8,
    tableRow "ACC_READ" .d32 0x33#8,
    tableRow "ACC_SCALE" .d32 0x34#8,
    tableRow "ACC_PEAKMEAN" .n 0x35#8,
    tableRow "ACC_READ_PCM" .id32 0x36#8,
    tableRow "ACC_STREAM" .i 0x37#8,
    tableRow "SYNTH_START" .n 0x40#8,
    tableRow "SYNTH_STEP" .n 0x41#8,
    tableRow "SYNTH_RUN" .n 0x42#8 ]

/-- `w` selects the row (30_encoding.md R74). -/
def TableRow.selects (row : TableRow) (w : CommandWord) : Bool :=
  w &&& row.mask == row.bits

/-- `w` is a legal command word: it matches a row of the table (30_encoding.md R75). -/
def wordWellFormed (w : CommandWord) : Bool :=
  opcodeTable.any fun row => row.selects w

/-- The operands of `i` fit the fields of its form (30_encoding.md R73). -/
def Instr.wellFormed : Instr → Bool
  | .nop => true
  | .reset => true
  | .statusRead => true
  | .errClear => true
  | .stateRead number => number.toNat < 2 ^ 8
  | .memRead space index => space.toNat < 2 ^ 8 && index.toNat < 2 ^ 32
  | .paramWrite number value => number.toNat < 2 ^ 8 && value.toNat < 2 ^ 32
  | .paramRead number => number.toNat < 2 ^ 8
  | .rngSeed seed => seed.toNat < 2 ^ 64
  | .rngNext64 => true
  | .rngNext32 => true
  | .rngNextF => true
  | .pinkNextV => true
  | .pinkNextF => true
  | .accClear => true
  | .accAppend sample => sample.toNat < 2 ^ 32
  | .accSize => true
  | .accRead index => index.toNat < 2 ^ 32
  | .accScale factor => factor.toNat < 2 ^ 32
  | .accPeakMean => true
  | .accReadPcm format index => format.toNat < 2 ^ 8 && index.toNat < 2 ^ 32
  | .accStream format => format.toNat < 2 ^ 8
  | .synthStart => true
  | .synthStep => true
  | .synthRun => true

end Sys2Proof
end

