-- ==== Sys2Proof/Decode.lean ====
section
/-!
DEFINITION. The decoder, total on command words and rejecting by name (30_encoding.md R72 to R77), and the encoder
written from the same table.
-/

namespace Sys2Proof

/-- Why a word is an illegal command (30_encoding.md R75). -/
inductive DecodeError where
  /-- The `op` value is not one of the 25 (30_encoding.md R76). -/
  | undefinedOp (op : BitVec 8)
  /-- A field that the form of `op` leaves unused is not zero (30_encoding.md R73). -/
  | mustBeZero (op : BitVec 8)
deriving DecidableEq, Repr

/-- `op`, bits 79:72 (30_encoding.md R72). -/
def opField (w : CommandWord) : BitVec 8 := w.extractLsb' 72 8

/-- `idx`, bits 71:64 (30_encoding.md R72). -/
def idxField (w : CommandWord) : BitVec 8 := w.extractLsb' 64 8

/-- `data`, bits 63:0 (30_encoding.md R72). -/
def dataField (w : CommandWord) : Word64 := w.extractLsb' 0 64

/-- `data[63:32]` (30_encoding.md R73). -/
def dataHigh (w : CommandWord) : Word32 := w.extractLsb' 32 32

/-- `data[31:0]` (30_encoding.md R73). -/
def dataLow (w : CommandWord) : Word32 := w.extractLsb' 0 32

/-- Form N: no operand, every other field zero (30_encoding.md R73). -/
def decodeN (w : CommandWord) (i : Instr) : Except DecodeError Instr :=
  if idxField w = 0#8 ∧ dataField w = 0#64 then .ok i else .error (.mustBeZero (opField w))

/-- Form I: `idx` is the operand (30_encoding.md R73). -/
def decodeI (w : CommandWord) (i : BitVec 8 → Instr) : Except DecodeError Instr :=
  if dataField w = 0#64 then .ok (i (idxField w)) else .error (.mustBeZero (opField w))

/-- Form D32: `data[31:0]` is the operand (30_encoding.md R73). -/
def decodeD32 (w : CommandWord) (i : Word32 → Instr) : Except DecodeError Instr :=
  if idxField w = 0#8 ∧ dataHigh w = 0#32 then .ok (i (dataLow w)) else .error (.mustBeZero (opField w))

/-- Form ID32: `idx` and `data[31:0]` are the operands (30_encoding.md R73). -/
def decodeID32 (w : CommandWord) (i : BitVec 8 → Word32 → Instr) : Except DecodeError Instr :=
  if dataHigh w = 0#32 then .ok (i (idxField w) (dataLow w)) else .error (.mustBeZero (opField w))

/-- Form D64: `data[63:0]` is the operand (30_encoding.md R73). -/
def decodeD64 (w : CommandWord) (i : Word64 → Instr) : Except DecodeError Instr :=
  if idxField w = 0#8 then .ok (i (dataField w)) else .error (.mustBeZero (opField w))

/-- The decode step: a function of the word alone (30_encoding.md R74, R75; 60_exceptions.md R215). -/
def decode (w : CommandWord) : Except DecodeError Instr :=
  match (opField w).toNat with
  | 0x00 => decodeN w .nop
  | 0x01 => decodeN w .reset
  | 0x02 => decodeN w .statusRead
  | 0x03 => decodeN w .errClear
  | 0x04 => decodeI w .stateRead
  | 0x05 => decodeID32 w .memRead
  | 0x10 => decodeID32 w .paramWrite
  | 0x11 => decodeI w .paramRead
  | 0x20 => decodeD64 w .rngSeed
  | 0x21 => decodeN w .rngNext64
  | 0x22 => decodeN w .rngNext32
  | 0x23 => decodeN w .rngNextF
  | 0x24 => decodeN w .pinkNextV
  | 0x25 => decodeN w .pinkNextF
  | 0x30 => decodeN w .accClear
  | 0x31 => decodeD32 w .accAppend
  | 0x32 => decodeN w .accSize
  | 0x33 => decodeD32 w .accRead
  | 0x34 => decodeD32 w .accScale
  | 0x35 => decodeN w .accPeakMean
  | 0x36 => decodeID32 w .accReadPcm
  | 0x37 => decodeI w .accStream
  | 0x40 => decodeN w .synthStart
  | 0x41 => decodeN w .synthStep
  | 0x42 => decodeN w .synthRun
  | _ => .error (.undefinedOp (opField w))

/-- The instruction the decoder reads from a table-numbered word: the one command word is 80 bits, and its bit 0 is
the table's bit 0 (30_encoding.md R72). Bits above `nbits` are 0. -/
def decodeTableWord (nbits w : Nat) : Option Instr :=
  match decode (BitVec.ofNat 80 (w % 2 ^ nbits)) with
  | .ok i => some i
  | .error _ => none

/-- `{op, idx, data}` (30_encoding.md R72, R78). -/
def commandWord (op idx : BitVec 8) (data : Word64) : CommandWord := op ++ idx ++ data

/-- A word of form N. -/
def encodeN (op : BitVec 8) : CommandWord := commandWord op 0#8 0#64

/-- A word of form I. -/
def encodeI (op idx : BitVec 8) : CommandWord := commandWord op idx 0#64

/-- A word of form D32. -/
def encodeD32 (op : BitVec 8) (low : Word32) : CommandWord := commandWord op 0#8 (0#32 ++ low)

/-- A word of form ID32. -/
def encodeID32 (op idx : BitVec 8) (low : Word32) : CommandWord := commandWord op idx (0#32 ++ low)

/-- A word of form D64. -/
def encodeD64 (op : BitVec 8) (data : Word64) : CommandWord := commandWord op 0#8 data

/-- The command word of a command (30_encoding.md R74). -/
def encode : Instr → CommandWord
  | .nop => encodeN 0x00#8
  | .reset => encodeN 0x01#8
  | .statusRead => encodeN 0x02#8
  | .errClear => encodeN 0x03#8
  | .stateRead number => encodeI 0x04#8 number
  | .memRead space index => encodeID32 0x05#8 space index
  | .paramWrite number value => encodeID32 0x10#8 number value
  | .paramRead number => encodeI 0x11#8 number
  | .rngSeed seed => encodeD64 0x20#8 seed
  | .rngNext64 => encodeN 0x21#8
  | .rngNext32 => encodeN 0x22#8
  | .rngNextF => encodeN 0x23#8
  | .pinkNextV => encodeN 0x24#8
  | .pinkNextF => encodeN 0x25#8
  | .accClear => encodeN 0x30#8
  | .accAppend sample => encodeD32 0x31#8 sample
  | .accSize => encodeN 0x32#8
  | .accRead index => encodeD32 0x33#8 index
  | .accScale factor => encodeD32 0x34#8 factor
  | .accPeakMean => encodeN 0x35#8
  | .accReadPcm format index => encodeID32 0x36#8 format index
  | .accStream format => encodeI 0x37#8 format
  | .synthStart => encodeN 0x40#8
  | .synthStep => encodeN 0x41#8
  | .synthRun => encodeN 0x42#8

end Sys2Proof
end

