-- ==== Sys2Proof/Config.lean ====
section
/-!
DEFINITION. What an implementation fixes (00_scope.md R5, at the values this hardware takes, log 6) and the free
values: constants without a body, of which nothing can be evaluated or proved (logs 7 to 11).
-/

namespace Sys2Proof

/-- `ACC_BLOCK`, the samples of one accumulator block (00_scope.md R5). -/
def Config.accBlock : Nat := 4096

/-- `ACC_NBLOCKS`, the accumulator's capacity in blocks (00_scope.md R5). -/
def Config.accBlocks : Nat := 256

/-- `SAMPLE_CAP` = `ACC_NBLOCKS * 4096` (00_scope.md R5). -/
def Config.sampleCap : Nat := Config.accBlocks * Config.accBlock

/-- `PHASER_LEN`, the words of the phaser ring (00_scope.md R5). -/
def Config.phaserLen : Nat := 1024

/-- `NOISE_LEN`, the words of one noise bank (00_scope.md R5). -/
def Config.noiseLen : Nat := 32

/-- `SUPERSAMPLE`, the sub-samples of one output sample (00_scope.md R5). -/
def Config.supersample : Nat := 8

/-- `PINK_RANGE` (00_scope.md R5, 42_pink_noise.md R120). -/
def Config.pinkRange : Word32 := 65536#32

/-- `RNG_SEED_XOR` (00_scope.md R5, 41_rng.md R111). -/
def Config.rngSeedXor : Word64 := 0x9E3779B97F4A7C15#64

/-- `RNG_MULT` (00_scope.md R5, 41_rng.md R112). -/
def Config.rngMult : Word64 := 0x2545F4914F6CDD1D#64

/-- `LFSR_RESET` (00_scope.md R5, 44_synth_control.md R158). -/
def Config.lfsrReset : BitVec 15 := 0x0001#15

/-- Free value: what the configuration function FSIN answers where its named properties leave it open
(00_scope.md R17, log 7). -/
opaque Config.sineFree : F64 → F64

/-- Free value: what FTAN answers where its named properties leave it open (00_scope.md R17, log 7). -/
opaque Config.tangentFree : F64 → F64

/-- Free value: what FPOW answers where its named properties leave it open (00_scope.md R17, log 7). -/
opaque Config.powerFree : F64 → F64 → F64

/-- Free value: `trunc_u32` of a binary32 value outside `0 <= x < 2^31`, which 00_scope.md R15 gives no result
for (log 8). -/
opaque Config.truncU32Free : F32 → Word32

/-- Free value: `trunc_u32` of a binary64 value outside `0 <= x < 2^31` (00_scope.md R15, log 8). -/
opaque Config.truncU64Free : F64 → Word32

/-- Free value: `trunc_i32` of a NaN or an infinity (00_scope.md R15, log 9). -/
opaque Config.truncI32Free : F32 → Word32

/-- Free value: `fmod64` outside the domain of 00_scope.md R16 (log 10). -/
opaque Config.fmodFree : F64 → F64 → F64

/-- Free value: the waveform sample for a wave code above 8, which no command can store (10_state.md R22, log 11). -/
opaque Config.waveFree : Word32 → F32

end Sys2Proof
end

