-- ==== Sys2Proof/Machine/State.lean ====
section
/-!
DEFINITION. The whole state of one SFXB instance (10_state.md R20) as plain data, with the ports of 30_encoding.md R70,
and its value after hard reset (10_state.md R34, 70_reset_and_hazards.md R230).
-/

namespace Sys2Proof.Machine

/-- `stop_cause`: why the last run ended (10_state.md R25). -/
inductive StopCause where
  /-- No run has ended since SYNTH_START or hard reset: code 0. -/
  | running
  /-- The envelope ended: code 1. -/
  | envelope
  /-- The frequency limit was hit: code 2. -/
  | frequencyLimit
  /-- The sample cap was hit: code 3. -/
  | sampleCap
deriving DecidableEq, Repr

/-- `env_stage` (10_state.md R24). -/
inductive EnvStage where
  /-- Code 0. -/
  | attack
  /-- Code 1. -/
  | sustain
  /-- Code 2. -/
  | decay
  /-- Code 3. -/
  | stopped
deriving DecidableEq, Repr

/-- The flags behind the register `STATUS` (10_state.md R25). -/
structure Status where
  playing : Bool
  seeded : Bool
  fatal : Bool
  stopCause : StopCause
  errflags : BitVec 6
deriving DecidableEq, Repr

/-- The registers `ResetFrequency()` writes (10_state.md R26, 44_synth_control.md R154). -/
structure FreqRegs where
  period : F64
  fperiod : F64
  fmaxperiod : F64
  fslide : F64
  fdslide : F64
  arpMod : F64
  squareDuty : F32
  squareSlide : F32
  arpTime : Word32
  arpLimit : Word32
deriving DecidableEq, Repr

/-- `rep_time` and `rep_limit` (10_state.md R26). -/
structure RepeatRegs where
  time : Word32
  limit : Word32
deriving DecidableEq, Repr

/-- The envelope registers (10_state.md R24, R26): `len0` to `len2` are `env_len[0]` to `env_len[2]`. -/
structure EnvRegs where
  stage : EnvStage
  time : Word32
  len0 : Word32
  len1 : Word32
  len2 : Word32
  vol : F32
deriving DecidableEq, Repr

/-- The filter registers (10_state.md R26). -/
structure FilterRegs where
  fltp : F32
  fltdp : F32
  fltw : F32
  fltwD : F32
  fltdmp : F32
  fltphp : F32
  flthp : F32
  flthpD : F32
deriving DecidableEq, Repr

/-- `vib_phase`, `vib_speed` and `vib_amp` (10_state.md R26). -/
structure VibratoRegs where
  phase : F32
  speed : F32
  amp : F32
deriving DecidableEq, Repr

/-- The phaser's registers (10_state.md R26). -/
structure PhaserRegs where
  fphase : F32
  fdphase : F32
  iphase : BitVec 10
  ipp : BitVec 10
deriving DecidableEq, Repr

/-- The pink-noise state: `pink_key` and `pink_w[0..4]` (10_state.md R28). -/
structure PinkRegs where
  key : BitVec 5
  w : Vector Word32 5
deriving DecidableEq, Repr

/-- The contents of a word-addressed memory whose unlisted words read +0.0 (20_memory.md R50; 10_state.md R30, R31):
pairs of a word index and a word, indices strictly rising, no listed word +0.0 (log 4). -/
abbrev Memory := List (Nat × Word32)

/-- One sample of the input ports (30_encoding.md R70): `command` is `cmd` where `cmd_valid` is 1. -/
structure PortSample where
  rst : Bool
  command : Option CommandWord
  rspReady : Bool
  soReady : Bool
deriving DecidableEq, Repr

/-- One byte of the stream with its `so_last` (30_encoding.md R70). -/
structure StreamByte where
  byte : Byte
  last : Bool
deriving DecidableEq, Repr

/-- A response: `rsp_err` and `rsp_data` (30_encoding.md R70, R72). -/
structure Response where
  err : BitVec 4
  data : Word64
deriving DecidableEq, Repr

/-- The ports. DESIGN CHOICE (log 1): `input` holds what the host drives from now on, next sample first. `stream` and
`rsp` are the outputs of the last command that have not been transferred yet (30_encoding.md R71, log 2). -/
structure Ports where
  input : List PortSample
  stream : List StreamByte
  rsp : Option Response
deriving DecidableEq, Repr

/-- The state of SFXB (10_state.md R20). `acc` holds the samples `ACC[0]` to `ACC[acc_size - 1]`, so that `acc_size`
is its length and no other word of `ACC` has a value (R32, log 5). -/
structure State where
  params : Vector Word32 28
  status : Status
  phase : F64
  freq : FreqRegs
  rep : RepeatRegs
  env : EnvRegs
  flt : FilterRegs
  vib : VibratoRegs
  pha : PhaserRegs
  lfsr : BitVec 15
  rng : Word64
  pink : PinkRegs
  phaser : Memory
  nwhite : Memory
  npink : Memory
  acc : List F32
  ports : Ports
deriving DecidableEq, Repr

/-- Why the machine stops. SFXB never does: every command word has an effect and every error is an error response
(60_exceptions.md R210, R212), so there is no constructor and no step answers a fault (log 16). -/
inductive Fault where
deriving DecidableEq, Repr

/-- Why an instruction has no meaning. No meaning of this model raises one (log 16). -/
inductive Refusal where
  /-- Raised only by an arm of `exec` whose instruction has no meaning yet: safe, since nothing is claimed of it. -/
  | notModelled (mnemonic : String)
deriving DecidableEq, Repr

/-- The reset values of `P[0]` to `P[27]` (10_state.md R21). -/
def resetParams : Vector Word32 28 :=
  #v[0x00000000#32, 0x00000000#32, 0x3E99999A#32, 0x3ECCCCCD#32, 0x00000000#32, 0x3E99999A#32, 0x00000000#32,
     0x00000000#32, 0x00000000#32, 0x00000000#32, 0x00000000#32, 0x00000000#32, 0x00000000#32, 0x00000000#32,
     0x00000000#32, 0x00000000#32, 0x3F800000#32, 0x00000000#32, 0x00000000#32, 0x00000000#32, 0x00000000#32,
     0x00000000#32, 0x00000000#32, 0x00000000#32, 0x00000000#32, 0x00000000#32, 0x3F000000#32, 0x3D4CCCCD#32]

/-- The state after hard reset (10_state.md R34). The ports drive nothing and present nothing. -/
def State.reset : State where
  params := resetParams
  status := { playing := false, seeded := false, fatal := false, stopCause := .running, errflags := 0 }
  phase := 0
  freq := { period := 0, fperiod := 0, fmaxperiod := 0, fslide := 0, fdslide := 0, arpMod := 0, squareDuty := 0,
            squareSlide := 0, arpTime := 0, arpLimit := 0 }
  rep := { time := 0, limit := 0 }
  env := { stage := .attack, time := 0, len0 := 0, len1 := 0, len2 := 0, vol := 0 }
  flt := { fltp := 0, fltdp := 0, fltw := 0, fltwD := 0, fltdmp := 0, fltphp := 0, flthp := 0, flthpD := 0 }
  vib := { phase := 0, speed := 0, amp := 0 }
  pha := { fphase := 0, fdphase := 0, iphase := 0, ipp := 0 }
  lfsr := 0
  rng := 0
  pink := { key := 0, w := #v[0, 0, 0, 0, 0] }
  phaser := []
  nwhite := []
  npink := []
  acc := []
  ports := { input := [], stream := [], rsp := none }

end Sys2Proof.Machine
end

