-- ==== Sys2Proof/Machine/Flags.lean ====
section
/-!
DEFINITION. The register `STATUS` and the error flags (10_state.md R25; 60_exceptions.md R211, R214).
-/

namespace Sys2Proof.Machine

/-- The error codes of 60_exceptions.md R211 (`E_ILLEGAL` to `E_FATAL`). -/
inductive ErrorCode where
  /-- `E_ILLEGAL`, code 1. -/
  | illegal
  /-- `E_CONFIG`, code 2. -/
  | config
  /-- `E_STATE`, code 3. -/
  | state
  /-- `E_FULL`, code 4. -/
  | full
  /-- `E_RANGE`, code 5. -/
  | range
  /-- `E_FATAL`, code 6. -/
  | fatal
deriving DecidableEq, Repr

/-- `rsp_err` of an error (60_exceptions.md R211). -/
def ErrorCode.code : ErrorCode → BitVec 4
  | .illegal => 1#4
  | .config => 2#4
  | .state => 3#4
  | .full => 4#4
  | .range => 5#4
  | .fatal => 6#4

/-- The mask of `errflags[k-1]` for the error with code `k` (60_exceptions.md R211, R212). -/
def ErrorCode.flag (e : ErrorCode) : BitVec 6 := 1#6 <<< (e.code.toNat - 1)

/-- The two bits of `STOP_CAUSE` (10_state.md R25). -/
def StopCause.code : StopCause → BitVec 2
  | .running => 0#2
  | .envelope => 1#2
  | .frequencyLimit => 2#2
  | .sampleCap => 3#2

/-- The two bits of `env_stage` (10_state.md R24). -/
def EnvStage.code : EnvStage → BitVec 2
  | .attack => 0#2
  | .sustain => 1#2
  | .decay => 2#2
  | .stopped => 3#2

/-- `STATUS = {0[1:0], errflags[5:0], 0[2:0], stop_cause[1:0], fatal, seeded, playing}`
(10_state.md R25, 40_system_and_parameters.md R92). -/
def statusWord (t : Status) : BitVec 16 :=
  0#2 ++ t.errflags ++ 0#3 ++ t.stopCause.code ++ BitVec.ofBool t.fatal ++ BitVec.ofBool t.seeded ++
    BitVec.ofBool t.playing

/-- What an error writes: its flag and, for `E_RANGE` only, `fatal` (60_exceptions.md R212). -/
def recordError (e : ErrorCode) (t : Status) : Status :=
  { t with errflags := t.errflags ||| e.flag, fatal := t.fatal || decide (e = .range) }

/-- Every error flag cleared but the `E_RANGE` flag (40_system_and_parameters.md R93). -/
def clearErrors (t : Status) : Status := { t with errflags := t.errflags &&& 0b010000#6 }

end Sys2Proof.Machine
end

