-- ==== Sys2Proof/Machine/Float.lean ====
section
/-!
DEFINITION. IEEE 754 binary32 and binary64 on bit patterns (00_scope.md R10 to R16): every finite value of a format is
an integer multiple of the format's least positive value, so an operation unpacks its operands to signed integers,
computes exactly, and rounds once at the end, to nearest, ties to even.
-/

namespace Sys2Proof.Machine

/-- A binary format: its width in bits, the bits of its significand (hidden bit included), and `scale`, where
`2^-scale` is its least positive value. -/
structure FloatFormat where
  width : Nat
  prec : Nat
  scale : Nat
deriving DecidableEq, Repr

/-- binary32 (00_scope.md R10). -/
def binary32 : FloatFormat := { width := 32, prec := 24, scale := 149 }

/-- binary64 (00_scope.md R10). -/
def binary64 : FloatFormat := { width := 64, prec := 53, scale := 1074 }

/-- The biased exponent of the infinities and NaNs. -/
def FloatFormat.topExponent (f : FloatFormat) : Nat := 2 ^ (f.width - f.prec) - 1

/-- The pattern of +infinity. -/
def FloatFormat.infBits (f : FloatFormat) : Nat := f.topExponent * 2 ^ (f.prec - 1)

/-- The sign bit of a pattern. -/
def FloatFormat.signBit (f : FloatFormat) : Nat := 2 ^ (f.width - 1)

/-- The quiet NaN every NaN result is (00_scope.md R13). -/
def FloatFormat.nanBits (f : FloatFormat) : Nat := f.infBits + 2 ^ (f.prec - 2)

/-- What a pattern stands for. `fin neg k` is the value `k * 2^-scale`, negated where `neg`. -/
inductive FloatValue where
  | nan
  | inf (neg : Bool)
  | fin (neg : Bool) (k : Nat)
deriving DecidableEq, Repr

/-- The value of a pattern; subnormals are kept (00_scope.md R13). -/
def FloatFormat.unpack (f : FloatFormat) (x : Nat) : FloatValue :=
  let neg := x.testBit (f.width - 1)
  let exponent := x / 2 ^ (f.prec - 1) % 2 ^ (f.width - f.prec)
  let fraction := x % 2 ^ (f.prec - 1)
  if exponent = f.topExponent then
    if fraction = 0 then .inf neg else .nan
  else if exponent = 0 then .fin neg fraction
  else .fin neg ((2 ^ (f.prec - 1) + fraction) * 2 ^ (exponent - 1))

/-- The integer nearest to `n / d`, ties to even. -/
def roundHalfEven (n d : Nat) : Nat :=
  let k := n / d
  let r := n % d
  if 2 * r < d then k else if d < 2 * r then k + 1 else k + k % 2

/-- The pattern, sign bit clear, of the format's value nearest to `(n / d) * 2^-scale` for `d > 0`, ties to even; it
is the pattern of +infinity when that rounds past the largest finite value (00_scope.md R11, R13). -/
def FloatFormat.roundMagnitude (f : FloatFormat) (n d : Nat) : Nat :=
  let q := Nat.log2 (n / d) - (f.prec - 1)
  min (q * 2 ^ (f.prec - 1) + roundHalfEven n (d * 2 ^ q)) f.infBits

/-- A pattern with the sign `neg`. -/
def FloatFormat.withSign (f : FloatFormat) (neg : Bool) (magnitude : Nat) : Nat :=
  if neg then f.signBit + magnitude else magnitude

/-- The pattern of `(n / d) * 2^-scale` with the sign `neg`, rounded. -/
def FloatFormat.round (f : FloatFormat) (neg : Bool) (n d : Nat) : Nat :=
  f.withSign neg (f.roundMagnitude n d)

/-- The sum of two signed integers: sign and magnitude. An exact zero from operands of unlike signs is +0, as
rounding to nearest asks. -/
def signedSum (a : Bool) (m : Nat) (b : Bool) (n : Nat) : Bool × Nat :=
  if a = b then (a, m + n)
  else if n < m then (a, m - n)
  else if m < n then (b, n - m)
  else (false, 0)

/-- `x + y` (00_scope.md R11, R13). -/
def FloatFormat.add (f : FloatFormat) (x y : Nat) : Nat :=
  match f.unpack x, f.unpack y with
  | .nan, _ => f.nanBits
  | _, .nan => f.nanBits
  | .inf a, .inf b => if a = b then f.withSign a f.infBits else f.nanBits
  | .inf a, .fin _ _ => f.withSign a f.infBits
  | .fin _ _, .inf b => f.withSign b f.infBits
  | .fin a m, .fin b n => f.round (signedSum a m b n).1 (signedSum a m b n).2 1

/-- `-x`: the sign bit flips (00_scope.md R11). -/
def FloatFormat.negate (f : FloatFormat) (x : Nat) : Nat := x ^^^ f.signBit

/-- `x - y` (00_scope.md R11, R13). -/
def FloatFormat.sub (f : FloatFormat) (x y : Nat) : Nat := f.add x (f.negate y)

/-- `x * y` (00_scope.md R11, R13). -/
def FloatFormat.mul (f : FloatFormat) (x y : Nat) : Nat :=
  match f.unpack x, f.unpack y with
  | .nan, _ => f.nanBits
  | _, .nan => f.nanBits
  | .inf a, .inf b => f.withSign (a ^^ b) f.infBits
  | .inf a, .fin b n => if n = 0 then f.nanBits else f.withSign (a ^^ b) f.infBits
  | .fin a m, .inf b => if m = 0 then f.nanBits else f.withSign (a ^^ b) f.infBits
  | .fin a m, .fin b n => f.round (a ^^ b) (m * n) (2 ^ f.scale)

/-- `x / y` (00_scope.md R11, R13). -/
def FloatFormat.div (f : FloatFormat) (x y : Nat) : Nat :=
  match f.unpack x, f.unpack y with
  | .nan, _ => f.nanBits
  | _, .nan => f.nanBits
  | .inf _, .inf _ => f.nanBits
  | .inf a, .fin b _ => f.withSign (a ^^ b) f.infBits
  | .fin a _, .inf b => f.withSign (a ^^ b) 0
  | .fin a m, .fin b n =>
    if n = 0 then if m = 0 then f.nanBits else f.withSign (a ^^ b) f.infBits
    else f.round (a ^^ b) (m * 2 ^ f.scale) n

/-- The value of a pattern of the format `src`, rounded to the format `dst` (00_scope.md R11). -/
def convertFloat (src dst : FloatFormat) (x : Nat) : Nat :=
  match src.unpack x with
  | .nan => dst.nanBits
  | .inf a => dst.withSign a dst.infBits
  | .fin a m => dst.round a (m * 2 ^ dst.scale) (2 ^ src.scale)

/-- An unsigned integer rounded to the format (00_scope.md R11). -/
def FloatFormat.ofInteger (f : FloatFormat) (n : Nat) : Nat := f.round false (n * 2 ^ f.scale) 1

/-- The pattern is a NaN. -/
def FloatFormat.isNaN (f : FloatFormat) (x : Nat) : Bool := f.infBits < x % f.signBit

/-- The order of the patterns that are not NaNs, as an integer: sign and magnitude; both zeros are 0. -/
def FloatFormat.orderKey (f : FloatFormat) (x : Nat) : Int :=
  if x.testBit (f.width - 1) then -((x % f.signBit : Nat) : Int) else ((x % f.signBit : Nat) : Int)

/-- `x < y`, false with a NaN (00_scope.md R13). -/
def FloatFormat.lt (f : FloatFormat) (x y : Nat) : Bool :=
  !f.isNaN x && !f.isNaN y && decide (f.orderKey x < f.orderKey y)

/-- `x <= y`, false with a NaN (00_scope.md R13). -/
def FloatFormat.le (f : FloatFormat) (x y : Nat) : Bool :=
  !f.isNaN x && !f.isNaN y && decide (f.orderKey x ≤ f.orderKey y)

/-- `x == y`, false with a NaN, and true of the two zeros (00_scope.md R13). -/
def FloatFormat.eq (f : FloatFormat) (x y : Nat) : Bool :=
  !f.isNaN x && !f.isNaN y && decide (f.orderKey x = f.orderKey y)

/-- The integral value nearest to `x` towards zero, sign kept (00_scope.md R15, `truncf`). -/
def FloatFormat.truncate (f : FloatFormat) (x : Nat) : Nat :=
  match f.unpack x with
  | .nan => f.nanBits
  | .inf a => f.withSign a f.infBits
  | .fin a m => f.round a (m / 2 ^ f.scale * 2 ^ f.scale) 1

/-- The integer part of `x` where `0 <= x < 2^31`, and nothing elsewhere (00_scope.md R15). -/
def FloatFormat.truncNat? (f : FloatFormat) (x : Nat) : Option Nat :=
  match f.unpack x with
  | .fin a m => if (a && decide (m ≠ 0)) || decide (2 ^ 31 ≤ m / 2 ^ f.scale) then none else some (m / 2 ^ f.scale)
  | _ => none

/-! ## binary32 -/

/-- `x + y` in binary32 (00_scope.md R11). -/
def add32 (x y : F32) : F32 := BitVec.ofNat 32 (binary32.add x.toNat y.toNat)

/-- `x - y` in binary32 (00_scope.md R11). -/
def sub32 (x y : F32) : F32 := BitVec.ofNat 32 (binary32.sub x.toNat y.toNat)

/-- `x * y` in binary32 (00_scope.md R11). -/
def mul32 (x y : F32) : F32 := BitVec.ofNat 32 (binary32.mul x.toNat y.toNat)

/-- `x / y` in binary32 (00_scope.md R11). -/
def div32 (x y : F32) : F32 := BitVec.ofNat 32 (binary32.div x.toNat y.toNat)

/-- Unary minus in binary32 (00_scope.md R11). -/
def neg32 (x : F32) : F32 := x ^^^ 0x80000000#32

/-- `absf(x)`: the sign bit cleared (00_scope.md R15). -/
def abs32 (x : F32) : F32 := x &&& 0x7FFFFFFF#32

/-- `x < y` in binary32 (00_scope.md R13). -/
def lt32 (x y : F32) : Bool := binary32.lt x.toNat y.toNat

/-- `x <= y` in binary32 (00_scope.md R13). -/
def le32 (x y : F32) : Bool := binary32.le x.toNat y.toNat

/-- `x == y` in binary32 (00_scope.md R13). -/
def eq32 (x y : F32) : Bool := binary32.eq x.toNat y.toNat

/-- `x` is a NaN. -/
def isNaN32 (x : F32) : Bool := binary32.isNaN x.toNat

/-- `truncf(x)` (00_scope.md R15). -/
def truncf32 (x : F32) : F32 := BitVec.ofNat 32 (binary32.truncate x.toNat)

/-- `f32(n)` of an unsigned integer (00_scope.md R11). -/
def nat32 (n : Nat) : F32 := BitVec.ofNat 32 (binary32.ofInteger n)

/-- `trunc_u32(x)` of a binary32 value; outside `0 <= x < 2^31` a free value (00_scope.md R15, log 8). -/
def truncU32 (x : F32) : Word32 :=
  match binary32.truncNat? x.toNat with
  | some n => BitVec.ofNat 32 n
  | none => Config.truncU32Free x

/-- `trunc_i32(x)` of a binary32 value, in two's complement; a finite value beyond the range saturates at `2^31 - 1`
in magnitude (44_synth_control.md R169), a NaN or an infinity gives a free value (00_scope.md R15, log 9). -/
def truncI32 (x : F32) : Word32 :=
  match binary32.unpack x.toNat with
  | .fin a m =>
    let n := min (m / 2 ^ binary32.scale) (2 ^ 31 - 1)
    if a then BitVec.ofInt 32 (-(n : Int)) else BitVec.ofNat 32 n
  | _ => Config.truncI32Free x

/-! ## binary64 -/

/-- `x + y` in binary64 (00_scope.md R11). -/
def add64 (x y : F64) : F64 := BitVec.ofNat 64 (binary64.add x.toNat y.toNat)

/-- `x - y` in binary64 (00_scope.md R11). -/
def sub64 (x y : F64) : F64 := BitVec.ofNat 64 (binary64.sub x.toNat y.toNat)

/-- `x * y` in binary64 (00_scope.md R11). -/
def mul64 (x y : F64) : F64 := BitVec.ofNat 64 (binary64.mul x.toNat y.toNat)

/-- `x / y` in binary64 (00_scope.md R11). -/
def div64 (x y : F64) : F64 := BitVec.ofNat 64 (binary64.div x.toNat y.toNat)

/-- Unary minus in binary64 (00_scope.md R11). -/
def neg64 (x : F64) : F64 := x ^^^ 0x8000000000000000#64

/-- `x < y` in binary64 (00_scope.md R13). -/
def lt64 (x y : F64) : Bool := binary64.lt x.toNat y.toNat

/-- `x <= y` in binary64 (00_scope.md R13). -/
def le64 (x y : F64) : Bool := binary64.le x.toNat y.toNat

/-- `x == y` in binary64 (00_scope.md R13). -/
def eq64 (x y : F64) : Bool := binary64.eq x.toNat y.toNat

/-- `x` is a NaN. -/
def isNaN64 (x : F64) : Bool := binary64.isNaN x.toNat

/-- `x` is finite. -/
def isFinite64 (x : F64) : Bool :=
  match binary64.unpack x.toNat with
  | .fin _ _ => true
  | _ => false

/-- `f64(n)` of an unsigned integer (00_scope.md R11). -/
def nat64 (n : Nat) : F64 := BitVec.ofNat 64 (binary64.ofInteger n)

/-- `f64(x)` of a binary32 value, exact (00_scope.md R11). -/
def widen (x : F32) : F64 := BitVec.ofNat 64 (convertFloat binary32 binary64 x.toNat)

/-- `f32(x)` of a binary64 value, rounded (00_scope.md R11). -/
def narrow (x : F64) : F32 := BitVec.ofNat 32 (convertFloat binary64 binary32 x.toNat)

/-- `trunc_u32(x)` of a binary64 value; outside `0 <= x < 2^31` a free value (00_scope.md R15, log 8). -/
def truncU64 (x : F64) : Word32 :=
  match binary64.truncNat? x.toNat with
  | some n => BitVec.ofNat 32 n
  | none => Config.truncU64Free x

/-- `fmod64(a, b)`: exact for finite `a >= 0` and finite `b > 0` (00_scope.md R16); elsewhere a free value (log 10). -/
def fmod64 (a b : F64) : F64 :=
  match binary64.unpack a.toNat, binary64.unpack b.toNat with
  | .fin s m, .fin t n =>
    if (s && decide (m ≠ 0)) || t || decide (n = 0) then Config.fmodFree a b
    else BitVec.ofNat 64 (binary64.round s (m % n) 1)
  | _, _ => Config.fmodFree a b

/-! ## Literals (00_scope.md R12; the others are exactly representable) -/

/-- `1.0f`. -/
def one32 : F32 := 0x3F800000#32

/-- `2.0f`. -/
def two32 : F32 := 0x40000000#32

/-- `0.5f`. -/
def half32 : F32 := 0x3F000000#32

/-- `-0.5f`. -/
def negHalf32 : F32 := 0xBF000000#32

/-- `-1.0f`. -/
def negOne32 : F32 := 0xBF800000#32

/-- `0.1f` (00_scope.md R12). -/
def tenth32 : F32 := 0x3DCCCCCD#32

/-- `0.01f` (00_scope.md R12). -/
def hundredth32 : F32 := 0x3C23D70A#32

/-- `0.8f` (00_scope.md R12). -/
def eightTenths32 : F32 := 0x3F4CCCCD#32

/-- `0.00005f` (00_scope.md R12). -/
def dutySlideUnit32 : F32 := 0x3851B717#32

/-- `0.0001f` (00_scope.md R12). -/
def lowPassRampUnit32 : F32 := 0x38D1B717#32

/-- `0.0003f` (00_scope.md R12). -/
def highPassRampUnit32 : F32 := 0x399D4952#32

/-- `0.00001f` (00_scope.md R12). -/
def highPassFloor32 : F32 := 0x3727C5AC#32

/-- `0x1p-24f` (41_rng.md R116). -/
def twoToMinus24 : F32 := 0x33800000#32

/-- `1.0`. -/
def one64 : F64 := 0x3FF0000000000000#64

/-- `8.0`, `MIN_PERIOD` (00_scope.md R5). -/
def minPeriod : F64 := 0x4020000000000000#64

/-- `0.001` (00_scope.md R12). -/
def thousandth64 : F64 := 0x3F50624DD2F1A9FC#64

/-- `0.01` (00_scope.md R12). -/
def hundredth64 : F64 := 0x3F847AE147AE147B#64

/-- `0.000001` (00_scope.md R12). -/
def millionth64 : F64 := 0x3EB0C6F7A0B5ED8D#64

/-- `0.9` (00_scope.md R12). -/
def nineTenths64 : F64 := 0x3FECCCCCCCCCCCCD#64

/-- `TWO_PI` (00_scope.md R12). -/
def twoPi64 : F64 := 0x401921FB54442D18#64

/-! ## The configuration functions (00_scope.md R17, log 7)

Each is the free function of Config with the named properties put in, so that it ranges over exactly the functions
that have them. A NaN result is the quiet NaN (R13). -/

/-- A NaN replaced by the quiet NaN (00_scope.md R13). -/
def quiet64 (x : F64) : F64 := if isNaN64 x then BitVec.ofNat 64 binary64.nanBits else x

/-- `FSIN`: properties S1 and S2 (00_scope.md R17). -/
def fsin (x : F64) : F64 :=
  let y := Config.sineFree x
  if x = 0#64 then 0#64
  else if isFinite64 x && !(le64 (neg64 one64) y && le64 y one64) then 0#64
  else quiet64 y

/-- `FTAN`: properties T1 and T2 (00_scope.md R17). -/
def ftan (x : F64) : F64 :=
  let y := Config.tangentFree x
  if x = 0#64 then 0#64
  else if isFinite64 x && isNaN64 y then 0#64
  else quiet64 y

/-- `FPOW`: properties P1 to P5 (00_scope.md R17). -/
def fpow (x y : F64) : F64 :=
  let z := Config.powerFree x y
  if x = one64 then one64
  else if y = one64 && le64 0#64 x then x
  else if x = 0#64 && lt64 0#64 y then 0#64
  else if x.toNat = binary64.infBits && lt64 0#64 y then x
  else if le64 0#64 x && !le64 0#64 z then 0#64
  else quiet64 z

end Sys2Proof.Machine
end

