-- ==== Sys2Proof/Machine/Operands.lean ====
section
/-!
DEFINITION. The operand domains of the commands: parameter numbers and legal values (40_system_and_parameters.md R97 to
R99), state numbers (R94; 10_state.md R26), space codes (20_memory.md R50) and format codes (43_accumulator.md R137).
-/

namespace Sys2Proof.Machine

/-- The parameters whose legal range is [-1, 1] (40_system_and_parameters.md R99). -/
def signedParameter (n : Nat) : Bool := n ∈ [6, 7, 10, 15, 17, 20, 21, 22]

/-- `v` is one of 0.0, 1.0, ..., 24.0 or -0.0 (40_system_and_parameters.md R99). -/
def legalDepth (v : Word32) : Bool := v = 0x80000000#32 || (List.range 25).any fun k => v = nat32 k

/-- `legal(n, v)` of 40_system_and_parameters.md R99. -/
def legalParameter (n : Nat) (v : Word32) : Bool :=
  if n = 0 then v.toNat ≤ 8
  else if n = 24 then legalDepth v
  else if signedParameter n then le32 negOne32 v && le32 v one32
  else le32 0#32 v && le32 v one32

/-- The number of parameter registers, `N_PARAMS` (00_scope.md R5). -/
def parameterCount : Nat := 28

/-- The memory spaces MEM_READ reaches (20_memory.md R50). -/
inductive Space where
  | phaser
  | nwhite
  | npink
deriving DecidableEq, Repr

/-- The space with a code (20_memory.md R50; 40_system_and_parameters.md R95). -/
def Space.ofCode (code : BitVec 8) : Option Space :=
  match code.toNat with
  | 0 => some .phaser
  | 1 => some .nwhite
  | 2 => some .npink
  | _ => none

/-- The words of a space (20_memory.md R50). -/
def Space.length : Space → Nat
  | .phaser => Config.phaserLen
  | .nwhite => Config.noiseLen
  | .npink => Config.noiseLen

/-- The sample formats of 43_accumulator.md R137. -/
inductive SampleFormat where
  | f32
  | pcm8
  | pcm16
  | pcm24
  | pcm32
deriving DecidableEq, Repr

/-- The format with a code (43_accumulator.md R137). -/
def SampleFormat.ofCode (code : BitVec 8) : Option SampleFormat :=
  match code.toNat with
  | 0 => some .f32
  | 1 => some .pcm8
  | 2 => some .pcm16
  | 3 => some .pcm24
  | 4 => some .pcm32
  | _ => none

/-- Bytes per sample (43_accumulator.md R137). -/
def SampleFormat.bytes : SampleFormat → Nat
  | .f32 => 4
  | .pcm8 => 1
  | .pcm16 => 2
  | .pcm24 => 3
  | .pcm32 => 4

/-- `acc_size` (10_state.md R32). -/
def State.accSize (s : State) : Word32 := BitVec.ofNat 32 s.acc.length

/-- The register with a state number, as STATE_READ returns it (10_state.md R26, 40_system_and_parameters.md R94):
integers and binary32 patterns zero-extended; nothing above 0x2A. -/
def stateRegister (number : BitVec 8) (s : State) : Option Word64 :=
  match number.toNat with
  | 0x00 => some s.phase
  | 0x01 => some s.freq.period
  | 0x02 => some s.freq.fperiod
  | 0x03 => some s.freq.fmaxperiod
  | 0x04 => some s.freq.fslide
  | 0x05 => some s.freq.fdslide
  | 0x06 => some s.freq.arpMod
  | 0x07 => some (s.freq.squareDuty.setWidth 64)
  | 0x08 => some (s.freq.squareSlide.setWidth 64)
  | 0x09 => some (s.freq.arpTime.setWidth 64)
  | 0x0A => some (s.freq.arpLimit.setWidth 64)
  | 0x0B => some (s.rep.time.setWidth 64)
  | 0x0C => some (s.rep.limit.setWidth 64)
  | 0x0D => some (s.env.stage.code.setWidth 64)
  | 0x0E => some (s.env.time.setWidth 64)
  | 0x0F => some (s.env.len0.setWidth 64)
  | 0x10 => some (s.env.len1.setWidth 64)
  | 0x11 => some (s.env.len2.setWidth 64)
  | 0x12 => some (s.env.vol.setWidth 64)
  | 0x13 => some (s.flt.fltp.setWidth 64)
  | 0x14 => some (s.flt.fltdp.setWidth 64)
  | 0x15 => some (s.flt.fltw.setWidth 64)
  | 0x16 => some (s.flt.fltwD.setWidth 64)
  | 0x17 => some (s.flt.fltdmp.setWidth 64)
  | 0x18 => some (s.flt.fltphp.setWidth 64)
  | 0x19 => some (s.flt.flthp.setWidth 64)
  | 0x1A => some (s.flt.flthpD.setWidth 64)
  | 0x1B => some (s.vib.phase.setWidth 64)
  | 0x1C => some (s.vib.speed.setWidth 64)
  | 0x1D => some (s.vib.amp.setWidth 64)
  | 0x1E => some (s.pha.fphase.setWidth 64)
  | 0x1F => some (s.pha.fdphase.setWidth 64)
  | 0x20 => some (s.pha.iphase.setWidth 64)
  | 0x21 => some (s.pha.ipp.setWidth 64)
  | 0x22 => some (s.lfsr.setWidth 64)
  | 0x23 => some s.rng
  | 0x24 => some (s.pink.key.setWidth 64)
  | 0x25 => some (s.pink.w[0].setWidth 64)
  | 0x26 => some (s.pink.w[1].setWidth 64)
  | 0x27 => some (s.pink.w[2].setWidth 64)
  | 0x28 => some (s.pink.w[3].setWidth 64)
  | 0x29 => some (s.pink.w[4].setWidth 64)
  | 0x2A => some (s.accSize.setWidth 64)
  | _ => none

end Sys2Proof.Machine
end

