-- ==== Sys2Proof/Machine/Ops.lean ====
section
/-!
DEFINITION. The named operations over memory, registers and ports, the error response (the block's counterpart of an
exception: 60_exceptions.md R210 to R213) and the successful response. There is no return from an error (R218).
-/

namespace Sys2Proof.Machine

/-- A step of this machine. -/
abbrev Answer := Host.Outcome State Fault Refusal

/-! ## Memory (20_memory.md R50) -/

/-- The word at an index: a listed word, or the reset contents +0.0 (10_state.md R30, R31). -/
def Memory.read : Memory → Nat → Word32
  | [], _ => 0#32
  | (b, v) :: rest, a => if a = b then v else Memory.read rest a

/-- The word at an index replaced, the canonical form kept: +0.0 is what an unlisted word reads as, so writing it
removes the entry (log 4). -/
def Memory.write : Memory → Nat → Word32 → Memory
  | [], a, v => if v = 0#32 then [] else [(a, v)]
  | (b, u) :: rest, a, v =>
    if a < b then if v = 0#32 then (b, u) :: rest else (a, v) :: (b, u) :: rest
    else if a = b then if v = 0#32 then rest else (a, v) :: rest
    else (b, u) :: Memory.write rest a v

/-- Every listed index is at least `low` and below `length`, the indices rise strictly and no word is +0.0. -/
def Memory.wfFrom (length : Nat) : Nat → Memory → Bool
  | _, [] => true
  | low, (a, v) :: rest => low ≤ a && a < length && v ≠ 0#32 && Memory.wfFrom length (a + 1) rest

/-- The canonical form of a memory of `length` words (log 4). -/
def Memory.wf (length : Nat) (m : Memory) : Bool := Memory.wfFrom length 0 m

/-- The contents of a space. -/
def State.memory (s : State) : Space → Memory
  | .phaser => s.phaser
  | .nwhite => s.nwhite
  | .npink => s.npink

/-- `MemRead(space, i)` (00_scope.md R9, 20_memory.md R50). -/
def memRead (space : Space) (i : Nat) (s : State) : Word32 := Memory.read (s.memory space) i

/-- `MemWrite(space, i, v)` (00_scope.md R9, 20_memory.md R50). -/
def memWrite (space : Space) (i : Nat) (v : Word32) (s : State) : State :=
  match space with
  | .phaser => { s with phaser := Memory.write s.phaser i v }
  | .nwhite => { s with nwhite := Memory.write s.nwhite i v }
  | .npink => { s with npink := Memory.write s.npink i v }

/-- `AccAppend(v)`: the word at index `acc_size` and `acc_size + 1` (43_accumulator.md R132). -/
def accAppend (v : F32) (s : State) : State := { s with acc := s.acc ++ [v] }

/-! ## Registers -/

/-- `P[i]` (00_scope.md R9). -/
def State.p (s : State) (i : Fin 28) : Word32 := s.params[i]

/-- The end of a run: `playing <- 0; stop_cause <- c` (44_synth_control.md R161, R164, R167). -/
def endRun (c : StopCause) (s : State) : State :=
  { s with status := { s.status with playing := false, stopCause := c } }

/-- The hard reset of 70_reset_and_hazards.md R230. What the host drives from now on is not SFXB's state and stays;
a response or stream bytes not transferred are dropped. -/
def hardReset (s : State) : State :=
  { State.reset with ports := { State.reset.ports with input := s.ports.input } }

/-! ## Responses -/

/-- The response `rsp` is presented (30_encoding.md R71). -/
def State.present (s : State) (rsp : Response) : State := { s with ports := { s.ports with rsp := some rsp } }

/-- `respond(v)`: the command ends successfully with `rsp_data = v` (00_scope.md R9). -/
def respond (v : Word64) (s : State) : Answer := .next (s.present { err := 0#4, data := v })

/-- The state `raise E_X` leaves: the error's flag set, `fatal` set for `E_RANGE`, the response `rsp_err = X`,
`rsp_data = 0`, and nothing else changed (60_exceptions.md R212). -/
def errorState (e : ErrorCode) (s : State) : State :=
  { s with status := recordError e s.status }.present { err := e.code, data := 0#64 }

/-- `raise E_X` (60_exceptions.md R212). -/
def raise (e : ErrorCode) (s : State) : Answer := .next (errorState e s)

/-- One check of a command: `raise e` where `bad` holds, else what follows (40_system_and_parameters.md R90). -/
def check (e : ErrorCode) (bad : Bool) (s : State) (rest : State → Answer) : Answer :=
  if bad then raise e s else rest s

/-- The fatal gate (40_system_and_parameters.md R90 step 1, 60_exceptions.md R217). Every command but RESET and
STATUS_READ begins with it (log 13). -/
def fatalGate (s : State) (rest : State → Answer) : Answer := check .fatal s.status.fatal s rest

/-- Refused during a run (60_exceptions.md R211, 70_reset_and_hazards.md R233). -/
def idleCheck (s : State) (rest : State → Answer) : Answer := check .state s.status.playing s rest

/-- The seeded gate (41_rng.md R113). -/
def seededGate (s : State) (rest : State → Answer) : Answer := check .state (!s.status.seeded) s rest

/-! ## The output ports (30_encoding.md R70, R71) -/

/-- `so_valid`. -/
def State.soValid (s : State) : Bool := !s.ports.stream.isEmpty

/-- `so_byte` and `so_last`, where `so_valid` is 1. -/
def State.soPort (s : State) : Option StreamByte := s.ports.stream.head?

/-- `rsp_valid`: a command's stream bytes go out before its response. -/
def State.rspValid (s : State) : Bool := s.ports.stream.isEmpty && s.ports.rsp.isSome

/-- `rsp_err` and `rsp_data`, where `rsp_valid` is 1. -/
def State.rspPort (s : State) : Option Response := if s.ports.stream.isEmpty then s.ports.rsp else none

/-- `cmd_ready`: no command is in progress and no response is waiting. -/
def State.cmdReady (s : State) : Bool := s.ports.stream.isEmpty && s.ports.rsp.isNone

end Sys2Proof.Machine
end

