-- ==== Sys2Proof/Machine/Acc.lean ====
section
/-!
DEFINITION. The sample accumulator's commands (43_accumulator.md R130 to R140).
-/

namespace Sys2Proof.Machine

/-- ACC_CLEAR (43_accumulator.md R131). -/
def execAccClear (s : State) : Answer :=
  fatalGate s fun s => idleCheck s fun s => respond 0#64 { s with acc := [] }

/-- ACC_APPEND (43_accumulator.md R132). -/
def execAccAppend (sample : F32) (s : State) : Answer :=
  fatalGate s fun s => idleCheck s fun s =>
  check .full (Config.sampleCap ≤ s.acc.length) s fun s =>
  respond ((accAppend sample s).accSize.setWidth 64) (accAppend sample s)

/-- ACC_SIZE (43_accumulator.md R133). -/
def execAccSize (s : State) : Answer := fatalGate s fun s => respond (s.accSize.setWidth 64) s

/-- ACC_READ: a word of `ACC` that has no value is out of range (43_accumulator.md R134). -/
def execAccRead (index : Word32) (s : State) : Answer :=
  fatalGate s fun s =>
  match s.acc[index.toNat]? with
  | none => raise .range s
  | some v => respond (v.setWidth 64) s

/-- ACC_SCALE: one binary32 multiplication each (43_accumulator.md R135). -/
def execAccScale (factor : F32) (s : State) : Answer :=
  fatalGate s fun s => idleCheck s fun s =>
  respond 0#64 { s with acc := s.acc.map fun v => mul32 v factor }

/-- One sample of the scan of 43_accumulator.md R136: the peak so far and the binary64 sum so far. -/
def peakMeanStep (r : F32 × F64) (v : F32) : F32 × F64 :=
  let a := abs32 v
  (if lt32 r.1 a then a else r.1, add64 r.2 (widen a))

/-- `{mean, peak}` of the samples (43_accumulator.md R136). -/
def peakMean (samples : List F32) : Word64 :=
  let r := samples.foldl peakMeanStep (0#32, 0#64)
  let mean := if samples.isEmpty then 0#32 else narrow (div64 r.2 (nat64 samples.length))
  mean ++ r.1

/-- ACC_PEAKMEAN (43_accumulator.md R136). -/
def execAccPeakMean (s : State) : Answer := fatalGate s fun s => respond (peakMean s.acc) s

/-- `maxAmp` of an N-bit PCM format (43_accumulator.md R137). -/
def SampleFormat.maxAmp (f : SampleFormat) : Nat := 2 ^ (8 * f.bytes - 1) - 1

/-- The integer nearest to a finite binary64 value, ties away from zero (43_accumulator.md R138). The rule rounds no
infinity and no NaN (its tests before this one take them), so the last case is never asked for. -/
def roundAway (x : F64) : Int :=
  match binary64.unpack x.toNat with
  | .fin neg k =>
    let n := (2 * k + 2 ^ binary64.scale) / 2 ^ (binary64.scale + 1)
    if neg then -(n : Int) else (n : Int)
  | _ => 0

/-- The signed integer of a PCM sample: NaN gives 0, the ends are clamped (43_accumulator.md R138). -/
def pcmInteger (maxAmp : Nat) (v : F32) : Int :=
  let x := mul64 (widen v) (nat64 maxAmp)
  if isNaN32 v then 0
  else if le64 (nat64 maxAmp) x then (maxAmp : Int)
  else if le64 x (neg64 (nat64 maxAmp)) then -(maxAmp : Int)
  else roundAway x

/-- `Pcm(fmt, v)`: an N-bit two's-complement pattern, zero-extended; the raw bits for F32
(43_accumulator.md R138). -/
def pcm (f : SampleFormat) (v : F32) : Word32 :=
  match f with
  | .f32 => v
  | .pcm8 => (BitVec.ofInt 8 (pcmInteger f.maxAmp v)).setWidth 32
  | .pcm16 => (BitVec.ofInt 16 (pcmInteger f.maxAmp v)).setWidth 32
  | .pcm24 => (BitVec.ofInt 24 (pcmInteger f.maxAmp v)).setWidth 32
  | .pcm32 => BitVec.ofInt 32 (pcmInteger f.maxAmp v)

/-- ACC_READ_PCM (43_accumulator.md R139). -/
def execAccReadPcm (code : BitVec 8) (index : Word32) (s : State) : Answer :=
  fatalGate s fun s =>
  match SampleFormat.ofCode code with
  | none => raise .config s
  | some f =>
    match s.acc[index.toNat]? with
    | none => raise .range s
    | some v => respond ((pcm f v).setWidth 64) s

/-- The bytes of one sample, least significant first (43_accumulator.md R140, 20_memory.md R55). -/
def sampleBytes (f : SampleFormat) (v : F32) : List Byte :=
  (List.range f.bytes).map fun k => (pcm f v).extractLsb' (8 * k) 8

/-- `so_last` on the last byte only (43_accumulator.md R140). -/
def markLast : List Byte → List StreamByte
  | [] => []
  | [b] => [{ byte := b, last := true }]
  | b :: rest => { byte := b, last := false } :: markLast rest

/-- The stream of an ACC_STREAM (43_accumulator.md R140). -/
def streamOf (f : SampleFormat) (samples : List F32) : List StreamByte := markLast (samples.flatMap (sampleBytes f))

/-- ACC_STREAM: the bytes are put on the stream port and the response follows them (43_accumulator.md R140,
30_encoding.md R71). -/
def execAccStream (code : BitVec 8) (s : State) : Answer :=
  fatalGate s fun s =>
  match SampleFormat.ofCode code with
  | none => raise .config s
  | some f =>
    respond (BitVec.ofNat 64 (s.acc.length * f.bytes))
      { s with ports := { s.ports with stream := streamOf f s.acc } }

end Sys2Proof.Machine
end

