-- ==== Sys2Proof/Machine/Param.lean ====
section
/-!
DEFINITION. The parameter commands PARAM_WRITE and PARAM_READ (40_system_and_parameters.md R97 to R99).
-/

namespace Sys2Proof.Machine

/-- `P[n] <- v` for a parameter number (40_system_and_parameters.md R97). -/
def writeParameter (n : Fin 28) (v : Word32) (s : State) : State := { s with params := s.params.set n v }

/-- The parameter register with a number, if there is one (40_system_and_parameters.md R97, R98). -/
def parameterNumber (number : BitVec 8) : Option (Fin 28) :=
  if h : number.toNat < 28 then some ⟨number.toNat, h⟩ else none

/-- PARAM_WRITE (40_system_and_parameters.md R97). -/
def execParamWrite (number : BitVec 8) (value : Word32) (s : State) : Answer :=
  fatalGate s fun s =>
  match parameterNumber number with
  | none => raise .config s
  | some n =>
    check .config (!legalParameter n value) s fun s =>
    idleCheck s fun s =>
    respond 0#64 (writeParameter n value s)

/-- PARAM_READ (40_system_and_parameters.md R98). -/
def execParamRead (number : BitVec 8) (s : State) : Answer :=
  fatalGate s fun s =>
  match parameterNumber number with
  | none => raise .config s
  | some n => respond ((s.p n).setWidth 64) s

end Sys2Proof.Machine
end

