-- ==== Sys2Proof/Machine/Rng.lean ====
section
/-!
DEFINITION. The random-number generator (41_rng.md R110 to R118), the pink-noise generator (42_pink_noise.md R120 to
R126), and their commands.
-/

namespace Sys2Proof.Machine

/-! ## Draws -/

/-- The xorshift advance of `rng_state`: right 12, left 25, right 27 (41_rng.md R112). -/
def xorshift (x : Word64) : Word64 :=
  let x := x ^^^ (x >>> 12)
  let x := x ^^^ (x <<< 25)
  x ^^^ (x >>> 27)

/-- `Next64()`: the draw and the state with `rng_state` advanced (41_rng.md R112). -/
def next64 (s : State) : Word64 × State :=
  let x := xorshift s.rng
  (x * Config.rngMult, { s with rng := x })

/-- `Next32()`: the high half of one draw (41_rng.md R115). -/
def next32 (s : State) : Word32 × State := ((next64 s).1.extractLsb' 32 32, (next64 s).2)

/-- `NextFloat()`: the top 24 bits of a 32-bit draw, times `2^-24` (41_rng.md R116). -/
def nextFloat (s : State) : F32 × State :=
  (mul32 (nat32 ((next32 s).1 >>> 8).toNat) twoToMinus24, (next32 s).2)

/-! ## Pink noise -/

/-- `PINK_M = PINK_RANGE div 5` (42_pink_noise.md R120). -/
def pinkModulus : Word32 := Config.pinkRange / 5#32

/-- `pink_w[i] <- Next32() mod PINK_M` (42_pink_noise.md R121, R122). -/
def redrawPink (s : State) (i : Fin 5) : State :=
  { (next32 s).2 with pink := { s.pink with w := s.pink.w.set i ((next32 s).1 % pinkModulus) } }

/-- `PinkConstruct()`: five draws, ascending (42_pink_noise.md R121). -/
def pinkConstruct (s : State) : State :=
  (List.finRange 5).foldl redrawPink { s with pink := { s.pink with key := 0#5 } }

/-- One sub-generator of `PinkNextValue()`: redrawn where its counter bit flipped, then added to the sum
(42_pink_noise.md R122). -/
def pinkTerm (diff : BitVec 5) (acc : Word32 × State) (i : Fin 5) : Word32 × State :=
  let s := if diff.getLsbD i then redrawPink acc.2 i else acc.2
  (acc.1 + s.pink.w[i], s)

/-- `PinkNextValue()` (42_pink_noise.md R122). -/
def pinkNextValue (s : State) : Word32 × State :=
  let key := s.pink.key + 1#5
  (List.finRange 5).foldl (pinkTerm (s.pink.key ^^^ key)) (0#32, { s with pink := { s.pink with key := key } })

/-- `PinkNextFloat()`: one binary32 division (42_pink_noise.md R123). -/
def pinkNextFloat (s : State) : F32 × State :=
  (div32 (nat32 (pinkNextValue s).1.toNat) (nat32 Config.pinkRange.toNat), (pinkNextValue s).2)

/-! ## Noise banks -/

/-- The map of a draw in [0, 1) to a bank word (44_synth_control.md R158, 45_synth_datapath.md R182). -/
def bankWord (x : F32) : F32 := sub32 (mul32 x two32) one32

/-- `MemWrite(NWHITE, i, NextFloat() * 2.0f - 1.0f)` (45_synth_datapath.md R182). -/
def refreshWhiteWord (s : State) (i : Nat) : State := memWrite .nwhite i (bankWord (nextFloat s).1) (nextFloat s).2

/-- `MemWrite(NPINK, i, PinkNextFloat() * 2.0f - 1.0f)` (45_synth_datapath.md R182). -/
def refreshPinkWord (s : State) (i : Nat) : State :=
  memWrite .npink i (bankWord (pinkNextFloat s).1) (pinkNextFloat s).2

/-- `RefreshWhite()`: the white bank, ascending (45_synth_datapath.md R182). -/
def refreshWhite (s : State) : State := (List.range Config.noiseLen).foldl refreshWhiteWord s

/-- `RefreshPink()`: the pink bank, ascending (45_synth_datapath.md R182). -/
def refreshPink (s : State) : State := (List.range Config.noiseLen).foldl refreshPinkWord s

/-! ## Commands -/

/-- What RNG_SEED does to the state: seed, flag, pink construction (41_rng.md R111). -/
def seedRng (seed : Word64) (s : State) : State :=
  pinkConstruct { s with rng := Config.rngSeedXor ^^^ seed, status := { s.status with seeded := true } }

/-- RNG_SEED (41_rng.md R111). -/
def execRngSeed (seed : Word64) (s : State) : Answer :=
  fatalGate s fun s => idleCheck s fun s => respond 0#64 (seedRng seed s)

/-- The checks of a draw command, then the draw (41_rng.md R113, R114; 42_pink_noise.md R124). -/
def drawCommand (draw : State → Word64 × State) (s : State) : Answer :=
  fatalGate s fun s => seededGate s fun s => idleCheck s fun s => respond (draw s).1 (draw s).2

/-- RNG_NEXT64 (41_rng.md R114). -/
def execRngNext64 (s : State) : Answer := drawCommand next64 s

/-- RNG_NEXT32 (41_rng.md R115). -/
def execRngNext32 (s : State) : Answer := drawCommand (fun s => ((next32 s).1.setWidth 64, (next32 s).2)) s

/-- RNG_NEXTF (41_rng.md R116). -/
def execRngNextF (s : State) : Answer := drawCommand (fun s => ((nextFloat s).1.setWidth 64, (nextFloat s).2)) s

/-- PINK_NEXTV (42_pink_noise.md R124). -/
def execPinkNextV (s : State) : Answer :=
  drawCommand (fun s => ((pinkNextValue s).1.setWidth 64, (pinkNextValue s).2)) s

/-- PINK_NEXTF (42_pink_noise.md R125). -/
def execPinkNextF (s : State) : Answer :=
  drawCommand (fun s => ((pinkNextFloat s).1.setWidth 64, (pinkNextFloat s).2)) s

end Sys2Proof.Machine
end

