-- ==== Sys2Proof/Machine/Resets.lean ====
section
/-!
DEFINITION. The full reset and the soft reset of the engine (44_synth_control.md R152 to R159). The procedures that
derive a register group from the parameters alone are functions of the parameters.
-/

namespace Sys2Proof.Machine

/-- `100.0 / (x * x + 0.001)` for a parameter in binary64 (44_synth_control.md R154). -/
def periodOf (x : F64) : F64 := div64 (nat64 100) (add64 (mul64 x x) thousandth64)

/-- `trunc_u32((t * t) * 20000.0f + 32.0f)` with `t = 1.0f - x` (44_synth_control.md R154, R159). -/
def speedLimit (x : F32) : Word32 :=
  let t := sub32 one32 x
  truncU32 (add32 (mul32 (mul32 t t) (nat32 20000)) (nat32 32))

/-- `arp_mod` (44_synth_control.md R154). -/
def arpFactor (x : F32) : F64 :=
  let am := widen x
  if le32 0#32 x then sub64 one64 (mul64 (mul64 am am) nineTenths64)
  else add64 one64 (mul64 (mul64 am am) (nat64 10))

/-- `ResetFrequency()` (44_synth_control.md R154). -/
def resetFrequency (p : Vector Word32 28) : FreqRegs :=
  let fr := widen p[6]
  let fd := widen p[7]
  { period := periodOf (widen p[5])
    fperiod := periodOf (widen p[5])
    fmaxperiod := periodOf (widen p[8])
    fslide := sub64 one64 (mul64 (mul64 (mul64 fr fr) fr) hundredth64)
    fdslide := neg64 (mul64 (mul64 (mul64 fd fd) fd) millionth64)
    arpMod := arpFactor p[15]
    squareDuty := sub32 half32 (mul32 p[9] half32)
    squareSlide := mul32 (neg32 p[10]) dutySlideUnit32
    arpTime := 0#32
    arpLimit := if eq32 p[14] one32 then 0#32 else speedLimit p[14] }

/-- `trunc_u32((x * x) * 100000.0f)` (44_synth_control.md R155). -/
def stageLength (x : F32) : Word32 := truncU32 (mul32 (mul32 x x) (nat32 100000))

/-- `ResetEnvelope()` (44_synth_control.md R155). -/
def resetEnvelope (p : Vector Word32 28) : EnvRegs :=
  { stage := .attack, time := 0#32, len0 := stageLength p[1], len1 := stageLength p[2], len2 := stageLength p[3],
    vol := 0#32 }

/-- `ResetFilters()` (44_synth_control.md R156). -/
def resetFilters (p : Vector Word32 28) : FilterRegs :=
  let fltw := mul32 (mul32 (mul32 p[16] p[16]) p[16]) tenth32
  let damping := mul32 (div32 (nat32 5) (add32 one32 (mul32 (mul32 p[18] p[18]) (nat32 20)))) (add32 hundredth32 fltw)
  { fltp := 0#32
    fltdp := 0#32
    fltw := fltw
    fltwD := add32 one32 (mul32 p[17] lowPassRampUnit32)
    fltdmp := if lt32 eightTenths32 damping then eightTenths32 else damping
    fltphp := 0#32
    flthp := mul32 (mul32 p[19] p[19]) tenth32
    flthpD := add32 one32 (mul32 p[20] highPassRampUnit32) }

/-- `ResetVibrato()` (44_synth_control.md R157). -/
def resetVibrato (p : Vector Word32 28) : VibratoRegs :=
  { phase := 0#32, speed := mul32 (mul32 p[12] p[12]) hundredth32, amp := mul32 p[11] half32 }

/-- `iphase` of an offset: `min(1023, |trunc_i32(fphase)|)` (44_synth_control.md R158, R169). -/
def phaserTap (fphase : F32) : BitVec 10 := BitVec.ofNat 10 (min 1023 (truncI32 fphase).toInt.natAbs)

/-- The sign of `x` put on a magnitude: negated where `x < 0.0f` (44_synth_control.md R158). -/
def signedBy (x magnitude : F32) : F32 := if lt32 x 0#32 then neg32 magnitude else magnitude

/-- The registers of `ResetPhaserAndNoise()` (44_synth_control.md R158). -/
def resetPhaser (p : Vector Word32 28) : PhaserRegs :=
  let fphase := signedBy p[21] (mul32 (mul32 p[21] p[21]) (nat32 1020))
  { fphase := fphase, fdphase := signedBy p[22] (mul32 p[22] p[22]), iphase := phaserTap fphase, ipp := 0#10 }

/-- `ResetPhaserAndNoise()`: the registers, the ring cleared, the white bank filled before the pink bank, the LFSR
(44_synth_control.md R158). -/
def resetPhaserAndNoise (s : State) : State :=
  { refreshPink (refreshWhite { s with pha := resetPhaser s.params, phaser := [] }) with lfsr := Config.lfsrReset }

/-- `ResetRepeat()` (44_synth_control.md R159). -/
def resetRepeat (p : Vector Word32 28) : RepeatRegs :=
  { time := 0#32, limit := if eq32 p[23] 0#32 then 0#32 else speedLimit p[23] }

/-- `FullReset()` (44_synth_control.md R152). -/
def fullReset (s : State) : State :=
  let s := { s with phase := 0#64, freq := resetFrequency s.params, env := resetEnvelope s.params,
                    flt := resetFilters s.params, vib := resetVibrato s.params }
  let s := resetPhaserAndNoise s
  { s with rep := resetRepeat s.params }

/-- `SoftReset()`: the frequency and envelope groups and nothing else (44_synth_control.md R153). -/
def softReset (s : State) : State := { s with freq := resetFrequency s.params, env := resetEnvelope s.params }

end Sys2Proof.Machine
end

