-- ==== Sys2Proof/Machine/Control.lean ====
section
/-!
DEFINITION. Steps 0 to 7 of the iteration (44_synth_control.md R161 to R169). A step that ends the run does so by
`endRun`, which clears `playing`.
-/

namespace Sys2Proof.Machine

/-- Step 1: the repeat counter and the soft reset (44_synth_control.md R162). -/
def repeatStep (s : State) : State :=
  let time := s.rep.time + 1#32
  if s.rep.limit ≠ 0#32 ∧ s.rep.limit ≤ time then softReset { s with rep := { s.rep with time := 0#32 } }
  else { s with rep := { s.rep with time := time } }

/-- Step 2: the one-shot arpeggio (44_synth_control.md R163). -/
def arpeggio (f : FreqRegs) : FreqRegs :=
  let time := f.arpTime + 1#32
  if f.arpLimit ≠ 0#32 ∧ f.arpLimit ≤ time then
    { f with arpTime := time, arpLimit := 0#32, fperiod := mul64 f.fperiod f.arpMod }
  else { f with arpTime := time }

/-- Step 2 on the state (44_synth_control.md R163). -/
def arpeggioStep (s : State) : State := { s with freq := arpeggio s.freq }

/-- Step 3: the slide, and the clamp that ends the run where `P[8] > 0.0f` (44_synth_control.md R164). -/
def slideStep (s : State) : State :=
  let fslide := add64 s.freq.fslide s.freq.fdslide
  let fperiod := mul64 s.freq.fperiod fslide
  if lt64 s.freq.fmaxperiod fperiod then
    let t := { s with freq := { s.freq with fslide := fslide, fperiod := s.freq.fmaxperiod } }
    if lt32 0#32 (s.p 8) then endRun .frequencyLimit t else t
  else { s with freq := { s.freq with fslide := fslide, fperiod := fperiod } }

/-- The effective period with its floor `MIN_PERIOD` (44_synth_control.md R165). -/
def floorPeriod (rfperiod : F64) : F64 := if le64 minPeriod rfperiod then rfperiod else minPeriod

/-- Step 4: vibrato and the effective period (44_synth_control.md R165). -/
def vibratoStep (s : State) : State :=
  if lt32 0#32 s.vib.amp then
    let phase := add32 s.vib.phase s.vib.speed
    let rfperiod := mul64 s.freq.fperiod (add64 one64 (mul64 (fsin (widen phase)) (widen s.vib.amp)))
    { s with vib := { s.vib with phase := phase }, freq := { s.freq with period := floorPeriod rfperiod } }
  else { s with freq := { s.freq with period := floorPeriod s.freq.fperiod } }

/-- `x` clamped: below `low` it becomes `low`, then above `high` it becomes `high` (44_synth_control.md R166,
45_synth_datapath.md R194). A NaN passes. -/
def clamp32 (low high x : F32) : F32 :=
  let y := if lt32 x low then low else x
  if lt32 high y then high else y

/-- Step 5: the duty and high-pass ramps (44_synth_control.md R166). -/
def rampStep (s : State) : State :=
  { s with
    freq := { s.freq with squareDuty := clamp32 0#32 half32 (add32 s.freq.squareDuty s.freq.squareSlide) }
    flt := { s.flt with flthp := clamp32 highPassFloor32 tenth32 (mul32 s.flt.flthp s.flt.flthpD) } }

/-- One pass of the loop of 44_synth_control.md R167: the next stage where this one's duration is reached. -/
def advanceStage (e : EnvRegs) : EnvRegs :=
  match e.stage with
  | .attack => if e.len0 ≤ e.time then { e with stage := .sustain, time := 0#32 } else e
  | .sustain => if e.len1 ≤ e.time then { e with stage := .decay, time := 0#32 } else e
  | .decay => if e.len2 ≤ e.time then { e with stage := .stopped, time := 0#32 } else e
  | .stopped => e

/-- The loop of 44_synth_control.md R167: it runs at most three times, and a pass that does not advance ends it. -/
def advanceStages (e : EnvRegs) : EnvRegs := advanceStage (advanceStage (advanceStage e))

/-- Step 6, first half: the stage advance, and the end of the run in Stopped (44_synth_control.md R167). -/
def stageStep (s : State) : State :=
  let t := { s with env := advanceStages s.env }
  if t.env.stage = .stopped then endRun .envelope t else t

/-- Step 6, second half: the volume of the stage, and `env_time + 1` (44_synth_control.md R168). In Stopped, where
the rule is not reached, nothing changes. -/
def envelopeVolume (punch : F32) (e : EnvRegs) : EnvRegs :=
  let r (len : Word32) := div32 (nat32 e.time.toNat) (nat32 len.toNat)
  let time := e.time + 1#32
  match e.stage with
  | .attack => { e with vol := r e.len0, time := time }
  | .sustain => { e with vol := add32 one32 (mul32 (mul32 (sub32 one32 (r e.len1)) two32) punch), time := time }
  | .decay => { e with vol := sub32 one32 (r e.len2), time := time }
  | .stopped => e

/-- Step 6, second half, on the state (44_synth_control.md R168). -/
def volumeStep (s : State) : State := { s with env := envelopeVolume (s.p 4) s.env }

/-- Step 7: the phaser tap offset (44_synth_control.md R169). -/
def phaserOffsetStep (s : State) : State :=
  let fphase := add32 s.pha.fphase s.pha.fdphase
  { s with pha := { s.pha with fphase := fphase, iphase := phaserTap fphase } }

end Sys2Proof.Machine
end

