-- ==== Sys2Proof/Machine/Datapath.lean ====
section
/-!
DEFINITION. Steps 8 and 9 of the iteration: the eight sub-samples and the output stage (45_synth_datapath.md R180 to
R203).
-/

namespace Sys2Proof.Machine

/-! ## Oscillator -/

/-- `LfsrStep()` (45_synth_datapath.md R183). -/
def lfsrStep (x : BitVec 15) : BitVec 15 :=
  let fb := x.extractLsb' 0 1 ^^^ x.extractLsb' 1 1
  (x >>> 1) ||| (fb.setWidth 15 <<< 14)

/-- What a phase wrap refreshes: the active waveform's bank or the LFSR (45_synth_datapath.md R181 to R183). -/
def wrapRefresh (s : State) : State :=
  match (s.p 0).toNat with
  | 3 => refreshWhite s
  | 5 => refreshPink s
  | 8 => { s with lfsr := lfsrStep s.lfsr }
  | _ => s

/-- `AdvancePhase()` (45_synth_datapath.md R181). -/
def advancePhase (s : State) : State :=
  let phase := add64 s.phase one64
  if le64 s.freq.period phase then wrapRefresh { s with phase := fmod64 phase s.freq.period }
  else { s with phase := phase }

/-- `NoiseIndex()` (45_synth_datapath.md R188, 20_memory.md R54). -/
def noiseIndex (s : State) : Nat := min 31 (truncU64 (div64 (mul64 s.phase (nat64 32)) s.freq.period)).toNat

/-- SQUARE (45_synth_datapath.md R185). -/
def waveSquare (fp duty : F32) : F32 := if lt32 fp duty then half32 else negHalf32

/-- SAWTOOTH (45_synth_datapath.md R186). -/
def waveSawtooth (fp : F32) : F32 := sub32 one32 (mul32 fp two32)

/-- SINE (45_synth_datapath.md R187). -/
def waveSine (fp : F32) : F32 := narrow (fsin (mul64 (widen fp) twoPi64))

/-- TRIANGLE (45_synth_datapath.md R189). -/
def waveTriangle (fp : F32) : F32 := sub32 (abs32 (sub32 one32 (mul32 fp two32))) one32

/-- TANGENT (45_synth_datapath.md R191). -/
def waveTangent (fp : F32) : F32 := narrow (ftan (mul64 (widen fp) twoPi64))

/-- BREAKER (45_synth_datapath.md R192). -/
def waveBreaker (fp : F32) : F32 := sub32 (abs32 (sub32 one32 (mul32 (mul32 fp fp) two32))) one32

/-- ONEBIT (45_synth_datapath.md R193). -/
def waveOneBit (lfsr : BitVec 15) : F32 := if lfsr.getLsbD 0 then half32 else negHalf32

/-- `fp`: the phase as a part of the period, in binary32 (45_synth_datapath.md R184). -/
def phaseFraction (s : State) : F32 := narrow (div64 s.phase s.freq.period)

/-- `Waveform()` (45_synth_datapath.md R184). No other wave code can be stored; for one the sample is a free value
(log 11). -/
def waveform (s : State) : F32 :=
  match (s.p 0).toNat with
  | 0 => waveSquare (phaseFraction s) s.freq.squareDuty
  | 1 => waveSawtooth (phaseFraction s)
  | 2 => waveSine (phaseFraction s)
  | 3 => memRead .nwhite (noiseIndex s) s
  | 4 => waveTriangle (phaseFraction s)
  | 5 => memRead .npink (noiseIndex s) s
  | 6 => waveTangent (phaseFraction s)
  | 7 => waveBreaker (phaseFraction s)
  | 8 => waveOneBit s.lfsr
  | _ => Config.waveFree (s.p 0)

/-! ## Filters and phaser -/

/-- `LowPass(sample)`: the registers it leaves; `pp` is the `fltp` it found (45_synth_datapath.md R194). -/
def lowPass (cutoff sample : F32) (r : FilterRegs) : FilterRegs :=
  let fltw := clamp32 0#32 tenth32 (mul32 r.fltw r.fltwD)
  if eq32 cutoff one32 then { r with fltw := fltw, fltdp := 0#32, fltp := add32 sample 0#32 }
  else
    let fltdp := add32 r.fltdp (mul32 (sub32 sample r.fltp) fltw)
    let fltdp := sub32 fltdp (mul32 fltdp r.fltdmp)
    { r with fltw := fltw, fltdp := fltdp, fltp := add32 r.fltp fltdp }

/-- `HighPass(pp)`: the sample is the `fltphp` it leaves (45_synth_datapath.md R195). -/
def highPass (pp : F32) (r : FilterRegs) : FilterRegs :=
  let fltphp := add32 r.fltphp (sub32 r.fltp pp)
  { r with fltphp := sub32 fltphp (mul32 fltphp r.flthp) }

/-- Both filters on one raw sample (45_synth_datapath.md R180, R194, R195). -/
def filters (cutoff sample : F32) (r : FilterRegs) : FilterRegs := highPass r.fltp (lowPass cutoff sample r)

/-- `Phaser(sample)`: the write precedes the read (45_synth_datapath.md R196, 20_memory.md R53). -/
def phaserTapSample (sample : F32) (s : State) : F32 × State :=
  let t := memWrite .phaser s.pha.ipp.toNat sample s
  (add32 sample (memRead .phaser (s.pha.ipp - s.pha.iphase).toNat t),
   { t with pha := { s.pha with ipp := s.pha.ipp + 1#10 } })

/-- One sub-sample: the sum so far and the state (45_synth_datapath.md R180, R197). -/
def subSample (r : F32 × State) : F32 × State :=
  let s := advancePhase r.2
  let s := { s with flt := filters (s.p 16) (waveform s) s.flt }
  let out := phaserTapSample s.flt.fltphp s
  (add32 r.1 (mul32 out.1 s.env.vol), out.2)

/-- `n` sub-samples, in order. -/
def subSampleLoop : Nat → F32 × State → F32 × State
  | 0, r => r
  | n + 1, r => subSampleLoop n (subSample r)

/-- `SubSamples()` (45_synth_datapath.md R180). -/
def subSamples (s : State) : F32 × State := subSampleLoop Config.supersample (0#32, s)

/-! ## Output stage -/

/-- Decimation to `bits` fraction bits (45_synth_datapath.md R199). -/
def decimate (depth s : F32) : F32 :=
  let bits := (truncU32 depth).toNat
  if 1 ≤ bits then div32 (truncf32 (mul32 s (nat32 (2 ^ bits)))) (nat32 (2 ^ bits)) else s

/-- The magnitude of `a` with the sign bit of `s`. -/
def copySign (a s : F32) : F32 := abs32 a ||| (s &&& 0x80000000#32)

/-- Sign-preserving power-law compression (45_synth_datapath.md R200). -/
def compress (exponent s : F32) : F32 :=
  if lt32 0#32 exponent then copySign (narrow (fpow (widen (abs32 s)) (widen exponent))) s else s

/-- Volume (45_synth_datapath.md R201). -/
def volume (master sound s : F32) : F32 := mul32 (mul32 s master) (mul32 two32 sound)

/-- The hard clip; a NaN passes (45_synth_datapath.md R202). -/
def clip (s : F32) : F32 :=
  let t := if lt32 one32 s then one32 else s
  if lt32 t negOne32 then negOne32 else t

/-- The sample the output stage makes of a sub-sample sum: average, decimation, compression, volume, clip
(45_synth_datapath.md R198 to R202). -/
def outputSample (ssample : F32) (s : State) : F32 :=
  let x := div32 ssample (nat32 8)
  clip (volume (s.p 27) (s.p 26) (compress (s.p 25) (decimate (s.p 24) x)))

/-- Steps 8 and 9 (44_synth_control.md R170; 45_synth_datapath.md R180, R198, R203). -/
def sampleStep (s : State) : State := accAppend (outputSample (subSamples s).1 (subSamples s).2) (subSamples s).2

end Sys2Proof.Machine
end

