-- ==== Sys2Proof/Machine/Synth.lean ====
section
/-!
DEFINITION. The iteration (44_synth_control.md R160) and the commands SYNTH_START, SYNTH_STEP and SYNTH_RUN (R151,
R171, R172).
-/

namespace Sys2Proof.Machine

/-- What follows a step of the iteration that may end the run: nothing where it did (44_synth_control.md R160). -/
def unlessEnded (rest : State → State) (s : State) : State := if s.status.playing then rest s else s

/-- `Iteration()`, steps 0 to 9 in order (44_synth_control.md R160, R161). -/
def iteration (s : State) : State :=
  if Config.sampleCap ≤ s.acc.length then endRun .sampleCap s
  else
    unlessEnded (fun s =>
      unlessEnded (fun s => sampleStep (phaserOffsetStep (volumeStep s))) (stageStep (rampStep (vibratoStep s))))
      (slideStep (arpeggioStep (repeatStep s)))

/-- What SYNTH_START does to the state (44_synth_control.md R151). -/
def startRun (s : State) : State :=
  let t := fullReset { s with acc := [] }
  { t with status := { t.status with playing := true, stopCause := .running } }

/-- SYNTH_START (44_synth_control.md R151). -/
def execSynthStart (s : State) : Answer :=
  fatalGate s fun s => seededGate s fun s => respond 0#64 (startRun s)

/-- The response of SYNTH_STEP to an iteration that found `n` samples: `{1[32], sample}` where one was appended
(44_synth_control.md R171). -/
def stepResponse (n : Nat) (t : State) : Word64 :=
  if h : t.acc.length = n + 1 then 1#32 ++ t.acc[n]'(by omega) else 0#64

/-- SYNTH_STEP (44_synth_control.md R171). -/
def execSynthStep (s : State) : Answer :=
  fatalGate s fun s =>
  if s.status.playing then respond (stepResponse s.acc.length (iteration s)) (iteration s)
  else respond 0#64 s

/-- `while playing = 1: Iteration()`, at most `n` times (44_synth_control.md R172). -/
def runLoop : Nat → State → State
  | 0, s => s
  | n + 1, s => if s.status.playing then runLoop n (iteration s) else s

/-- The loop of SYNTH_RUN. A run has at most `SAMPLE_CAP + 1` iterations, so the bound never cuts it short
(44_synth_control.md R173, log 15). -/
def finishRun (s : State) : State := runLoop (Config.sampleCap + 1) s

/-- SYNTH_RUN (44_synth_control.md R172). -/
def execSynthRun (s : State) : Answer :=
  fatalGate s fun s => respond ((finishRun s).accSize.setWidth 64) (finishRun s)

end Sys2Proof.Machine
end

