-- ==== Sys2Proof/Machine/System.lean ====
section
/-!
DEFINITION. The system commands NOP, RESET, STATUS_READ, ERR_CLEAR, STATE_READ and MEM_READ
(40_system_and_parameters.md R91 to R96), and the response to an illegal command (60_exceptions.md R215).
-/

namespace Sys2Proof.Machine

/-- NOP (40_system_and_parameters.md R91). -/
def execNop (s : State) : Answer := fatalGate s fun s => respond 0#64 s

/-- RESET passes the fatal gate (40_system_and_parameters.md R96). -/
def execReset (s : State) : Answer := respond 0#64 (hardReset s)

/-- STATUS_READ passes the fatal gate (40_system_and_parameters.md R92). -/
def execStatusRead (s : State) : Answer := respond ((statusWord s.status).setWidth 64) s

/-- ERR_CLEAR (40_system_and_parameters.md R93). -/
def execErrClear (s : State) : Answer :=
  fatalGate s fun s => respond 0#64 { s with status := clearErrors s.status }

/-- STATE_READ (40_system_and_parameters.md R94). -/
def execStateRead (number : BitVec 8) (s : State) : Answer :=
  fatalGate s fun s =>
  match stateRegister number s with
  | none => raise .config s
  | some v => respond v s

/-- MEM_READ (40_system_and_parameters.md R95). -/
def execMemRead (code : BitVec 8) (index : Word32) (s : State) : Answer :=
  fatalGate s fun s =>
  match Space.ofCode code with
  | none => raise .config s
  | some space =>
    check .config (space.length ≤ index.toNat) s fun s =>
    respond ((memRead space index.toNat s).setWidth 64) s

/-- The `op` values the fatal gate lets through (40_system_and_parameters.md R90 step 1). -/
def passesGate (op : BitVec 8) : Bool := op = 0x01#8 || op = 0x02#8

/-- A word that matches no row: the gate looks at `op` alone and comes first, then `E_ILLEGAL`
(40_system_and_parameters.md R90, 60_exceptions.md R213, R215, R217). -/
def illegalCommand (op : BitVec 8) (s : State) : Answer :=
  if s.status.fatal && !passesGate op then raise .fatal s else raise .illegal s

end Sys2Proof.Machine
end

