-- ==== Sys2Proof/Machine/Dispatch.lean ====
section
/-!
DEFINITION. The meaning of every command, one arm per constructor of Instr (30_encoding.md R74).
-/

namespace Sys2Proof.Machine

def exec (i : Instr) (s : State) : Host.Outcome State Fault Refusal :=
  match i with
  | .nop => Sys2Proof.Machine.execNop s
  | .reset => Sys2Proof.Machine.execReset s
  | .statusRead => Sys2Proof.Machine.execStatusRead s
  | .errClear => Sys2Proof.Machine.execErrClear s
  | .stateRead number => Sys2Proof.Machine.execStateRead number s
  | .memRead space index => Sys2Proof.Machine.execMemRead space index s
  | .paramWrite number value => Sys2Proof.Machine.execParamWrite number value s
  | .paramRead number => Sys2Proof.Machine.execParamRead number s
  | .rngSeed seed => Sys2Proof.Machine.execRngSeed seed s
  | .rngNext64 => Sys2Proof.Machine.execRngNext64 s
  | .rngNext32 => Sys2Proof.Machine.execRngNext32 s
  | .rngNextF => Sys2Proof.Machine.execRngNextF s
  | .pinkNextV => Sys2Proof.Machine.execPinkNextV s
  | .pinkNextF => Sys2Proof.Machine.execPinkNextF s
  | .accClear => Sys2Proof.Machine.execAccClear s
  | .accAppend sample => Sys2Proof.Machine.execAccAppend sample s
  | .accSize => Sys2Proof.Machine.execAccSize s
  | .accRead index => Sys2Proof.Machine.execAccRead index s
  | .accScale factor => Sys2Proof.Machine.execAccScale factor s
  | .accPeakMean => Sys2Proof.Machine.execAccPeakMean s
  | .accReadPcm format index => Sys2Proof.Machine.execAccReadPcm format index s
  | .accStream format => Sys2Proof.Machine.execAccStream format s
  | .synthStart => Sys2Proof.Machine.execSynthStart s
  | .synthStep => Sys2Proof.Machine.execSynthStep s
  | .synthRun => Sys2Proof.Machine.execSynthRun s

end Sys2Proof.Machine
end

