-- ==== Sys2Proof/Machine/Step.lean ====
section
/-!
DEFINITION. One step: one sample of the input ports (30_encoding.md R70, R71; logs 1 to 3), and the placing of a command
on the command port.
-/

namespace Sys2Proof.Machine

/-- An accepted command word: decoded and executed to completion, or answered as an illegal command
(30_encoding.md R71, R75; 40_system_and_parameters.md R90). -/
def execWord (w : CommandWord) (s : State) : Host.Outcome State Fault Refusal :=
  match decode w with
  | .ok i => exec i s
  | .error _ => illegalCommand (opField w) s

/-- The head of the waiting stream is transferred where the host takes it (30_encoding.md R71). -/
def transferByte (ready : Bool) (s : State) : State :=
  if ready then { s with ports := { s.ports with stream := s.ports.stream.tail } } else s

/-- The waiting response is transferred where the host takes it (30_encoding.md R71). -/
def transferResponse (ready : Bool) (s : State) : State :=
  if ready then { s with ports := { s.ports with rsp := none } } else s

/-- What one sample of the input ports does. `rst` comes first (70_reset_and_hazards.md R230); else stream bytes go
out before the response and the response before the next command (30_encoding.md R71). -/
def sample (x : PortSample) (s : State) : Host.Outcome State Fault Refusal :=
  if x.rst then .next (hardReset s)
  else if s.soValid then .next (transferByte x.soReady s)
  else if s.rspValid then .next (transferResponse x.rspReady s)
  else
    match x.command with
    | some w => execWord w s
    | none => .next s

/-- One step: the next sample of the input ports is used up. With nothing driven, SFXB is idle and all state is
retained (60_exceptions.md R227). -/
def step (s : State) : Host.Outcome State Fault Refusal :=
  match s.ports.input with
  | [] => .next s
  | x :: rest => sample x { s with ports := { s.ports with input := rest } }

/-- A sample that presents one command and takes nothing. -/
def commandSample (w : CommandWord) : PortSample := { rst := false, command := some w, rspReady := false, soReady := false }

/-- `s` with one command presented on the command port and no output waiting, so that the next step accepts it
(30_encoding.md R71, log 1). Bits above `nbits` are 0. -/
def State.withFetchWord (s : State) (nbits w : Nat) : State :=
  { s with ports := { input := [commandSample (BitVec.ofNat 80 (w % 2 ^ nbits))], stream := [], rsp := none } }

end Sys2Proof.Machine
end

