-- ==== Sys2Proof/Safety.lean ====
section
/-!
DEFINITION. What the spec promises of every state a step reaches: the invariant of 10_state.md R21, R24 to R32 and
90_conflicts.md C4, and what a run of commands is.
-/

namespace Sys2Proof.Machine

/-- What every state reached from the hard reset keeps. -/
structure State.Inv (s : State) : Prop where
  /-- Every `P[i]` holds a legal value (10_state.md R21). -/
  paramsLegal : ∀ n : Fin 28, legalParameter n (s.p n) = true
  /-- A run implies an accepted SYNTH_START and hence a seed (41_rng.md R113). -/
  playingSeeded : s.status.playing = true → s.status.seeded = true
  /-- The unseeded state is `rng_state = 0` (10_state.md R27). -/
  unseededZero : s.status.seeded = false → s.rng = 0#64
  /-- `fatal` is set with the `E_RANGE` flag and neither is cleared but by a hard reset (10_state.md R25). -/
  fatalFlag : s.status.fatal = s.status.errflags.getLsbD 4
  /-- `stop_cause` is 0 while a run is in progress (10_state.md R25). -/
  playingCause : s.status.playing = true → s.status.stopCause = .running
  /-- `env_stage = 3` implies `playing = 0` (90_conflicts.md C4). -/
  playingStage : s.status.playing = true → s.env.stage ≠ .stopped
  /-- The ring keeps its canonical form (log 4). -/
  phaserWf : Memory.wf Config.phaserLen s.phaser = true
  /-- The white bank keeps its canonical form (log 4). -/
  nwhiteWf : Memory.wf Config.noiseLen s.nwhite = true
  /-- The pink bank keeps its canonical form (log 4). -/
  npinkWf : Memory.wf Config.noiseLen s.npink = true
  /-- Each sub-generator is below `PINK_RANGE div 5` (10_state.md R28). -/
  pinkBound : ∀ i : Fin 5, s.pink.w[i] < pinkModulus
  /-- `acc_size` is at most `SAMPLE_CAP` (10_state.md R32). -/
  accBound : s.acc.length ≤ Config.sampleCap
  /-- Stream bytes go out before the response of their command (30_encoding.md R71). -/
  streamResponse : s.ports.stream ≠ [] → s.ports.rsp.isSome = true

/-- What 45_synth_datapath.md R204 promises of a sample a run appends: `-1.0 <= v <= 1.0` or a NaN. -/
def sampleInRange (v : F32) : Bool := isNaN32 v || (le32 negOne32 v && le32 v one32)

/-- The `n`-th 32-bit draw, from 0, of the generator in state `x` (41_rng.md R112, R115). -/
def draw32 (x : Word64) (n : Nat) : Word32 := (xorshift^[n + 1] x * 0x2545F4914F6CDD1D#64).extractLsb' 32 32

/-- The draws of one `PinkNextValue()` from the counter value `key`: its trailing one bits plus one, at most 5
(42_pink_noise.md R122). -/
def pinkDraws (key : BitVec 5) : Nat :=
  if key.toNat % 2 = 0 then 1 else if key.toNat % 4 = 1 then 2 else if key.toNat % 8 = 3 then 3
  else if key.toNat % 16 = 7 then 4 else 5

/-- The draws of one phase wrap: 32 for white noise, 62 for pink noise, none for the other wave types
(70_reset_and_hazards.md R242). -/
def wrapDraws (wave : Word32) : Nat := if wave = 3#32 then 32 else if wave = 5#32 then 62 else 0

/-- `n` draws are what the accepted command `i` makes in `s` where it appends `appended` samples
(70_reset_and_hazards.md R242). A sample has eight sub-samples with at most one wrap each (45_synth_datapath.md R180,
R181). RNG_SEED and RESET set the state and are not spoken of. -/
def drawsOf (i : Instr) (s : State) (appended n : Nat) : Prop :=
  match i with
  | .rngNext64 => n = 1
  | .rngNext32 => n = 1
  | .rngNextF => n = 1
  | .pinkNextV => n = pinkDraws s.pink.key
  | .pinkNextF => n = pinkDraws s.pink.key
  | .synthStart => n = 94
  | .synthStep => ∃ wraps, wraps ≤ 8 * appended ∧ n = wraps * wrapDraws (s.p 0)
  | .synthRun => ∃ wraps, wraps ≤ 8 * appended ∧ n = wraps * wrapDraws (s.p 0)
  | .rngSeed _ => True
  | .reset => True
  | .nop => n = 0
  | .statusRead => n = 0
  | .errClear => n = 0
  | .stateRead _ => n = 0
  | .memRead _ _ => n = 0
  | .paramWrite _ _ => n = 0
  | .paramRead _ => n = 0
  | .accClear => n = 0
  | .accAppend _ => n = 0
  | .accSize => n = 0
  | .accRead _ => n = 0
  | .accScale _ => n = 0
  | .accPeakMean => n = 0
  | .accReadPcm _ _ => n = 0
  | .accStream _ => n = 0

/-- The sum of the five sub-generators (42_pink_noise.md R122). -/
def pinkSum (w : Vector Word32 5) : Word32 := w[0] + w[1] + w[2] + w[3] + w[4]

end Sys2Proof.Machine
end

