-- ==== Sys2Proof/Certificates/Slice0/Obligations.lean ====
section
/-!
DEFINITION. The statements for the provers, from the numbered rules of spec/. A success is written
`s.present { err := 0#4, data := v }`, an error `errorState e s`: `ErrorsArePrecise` says what the second is.
-/

open Sys2Proof Sys2Proof.Machine

/-! ## Encoding (30_encoding.md) -/

/-- Every bit of an encoding is kept: decoding the word of a command gives the command (R72 to R74). -/
def Obligations.DecodeInvertsEncode : Prop :=
  ∀ i : Instr, i.wellFormed = true → decode (encode i) = .ok i

/-- Each word has one meaning: a word that decodes is the encoder's word of its command (R72 to R75). -/
def Obligations.EncodeInvertsDecode : Prop :=
  ∀ (w : CommandWord) (i : Instr), decode w = .ok i → encode i = w ∧ i.wellFormed = true

/-- The decoder accepts exactly the words that match a row of the table by its match and mask, at most one row matches
a word, and exactly the words with an unlisted `op` are refused as undefined (R74 to R76). -/
def Obligations.DecodeAgreesWithOpcodeTable : Prop :=
  (∀ w, (∃ i, decode w = .ok i) ↔ wordWellFormed w = true) ∧
  (∀ w, ∀ r ∈ opcodeTable, ∀ r' ∈ opcodeTable, r.selects w = true → r'.selects w = true → r = r') ∧
  (∀ w, decode w = .error (.undefinedOp (opField w)) ↔
    ∀ r ∈ opcodeTable, opField w ≠ r.bits.extractLsb' 72 8)

/-- Words written out from the formats of R72 to R74, one of each form and family. -/
def Obligations.WordsWrittenOutDecode : Prop :=
  decode 0x02000000000000000000#80 = .ok .statusRead ∧
  decode 0x05010000000000000007#80 = .ok (.memRead 1#8 7#32) ∧
  decode 0x1005000000003E99999A#80 = .ok (.paramWrite 5#8 0x3E99999A#32) ∧
  decode 0x11180000000000000000#80 = .ok (.paramRead 24#8) ∧
  decode 0x200089ABCDEF01234567#80 = .ok (.rngSeed 0x89ABCDEF01234567#64) ∧
  decode 0x25000000000000000000#80 = .ok .pinkNextF ∧
  decode 0x3100000000003F000000#80 = .ok (.accAppend 0x3F000000#32) ∧
  decode 0x36020000000000000003#80 = .ok (.accReadPcm 2#8 3#32) ∧
  decode 0x37030000000000000000#80 = .ok (.accStream 3#8) ∧
  decode 0x42000000000000000000#80 = .ok .synthRun ∧
  decode 0x1005000000013E99999A#80 = .error (.mustBeZero 0x10#8) ∧
  decode 0x06000000000000000000#80 = .error (.undefinedOp 0x06#8)

/-! ## The interface (30_encoding.md R70, R71; logs 1 to 3) -/

/-- With nothing waiting on the output ports, a step answers the word presented, whatever it is, and runs the command it
decodes to; and what is placed on the command port from any state is what the next step runs
(R71, R75; 40_system_and_parameters.md R90, log 1). -/
def Obligations.StepRunsTheAcceptedCommand : Prop :=
  (∀ (s : State) (x : PortSample) (rest : List PortSample) (w : CommandWord),
    s.ports.input = x :: rest → x.rst = false → s.ports.stream = [] → s.ports.rsp = none → x.command = some w →
    step s = execWord w { s with ports := { s.ports with input := rest } } ∧
    (∀ i, decode w = .ok i → step s = exec i { s with ports := { s.ports with input := rest } }) ∧
    (∀ e, decode w = .error e → ∃ c : ErrorCode,
      step s = .next (errorState c { s with ports := { s.ports with input := rest } }) ∧
      c = if s.status.fatal = true ∧ opField w ≠ 0x01#8 ∧ opField w ≠ 0x02#8 then .fatal else .illegal)) ∧
  (∀ (s : State) (w : CommandWord),
    step (s.withFetchWord 80 w.toNat) = execWord w { s with ports := { input := [], stream := [], rsp := none } }) ∧
  (∀ (s : State) (w : CommandWord) (i : Instr), decode w = .ok i → execWord w s = exec i s)

/-- Stream bytes go out before the response and the response before the next command is accepted; with no command
presented, or nothing driven, all state is retained (R70, R71; 60_exceptions.md R227). That the ports are sampled one
list entry a step, and that a command presented while an output waits is not accepted, are the model's (logs 1, 2). -/
def Obligations.OutputsGoOutInOrder : Prop :=
  (∀ s : State, s.cmdReady = true ↔ s.ports.stream = [] ∧ s.ports.rsp = none) ∧
  (∀ s : State, s.ports.input = [] → step s = .next s) ∧
  (∀ (s : State) (x : PortSample) (rest : List PortSample), s.ports.input = x :: rest → x.rst = false →
    (s.ports.stream ≠ [] → step s = .next { s with ports := {
      input := rest, stream := if x.soReady then s.ports.stream.tail else s.ports.stream, rsp := s.ports.rsp } }) ∧
    (s.ports.stream = [] → s.ports.rsp ≠ none → step s = .next { s with ports := {
      input := rest, stream := [], rsp := if x.rspReady then none else s.ports.rsp } }) ∧
    (s.ports.stream = [] → s.ports.rsp = none → x.command = none → step s = .next { s with ports := {
      input := rest, stream := [], rsp := none } }))

/-! ## Errors (60_exceptions.md) -/

/-- Every command, in every state, is answered by one response (30_encoding.md R71; 60_exceptions.md R210). -/
def Obligations.EveryCommandIsAnswered : Prop :=
  ∀ (w : CommandWord) (s : State), ∃ t r, execWord w s = .next t ∧ t.ports.rsp = some r ∧
    t.ports.input = s.ports.input

/-- A response with a nonzero code: the code is one of the six, `rsp_data` is 0, the flag of the code is set, `fatal`
is set for `E_RANGE` only, and nothing else has changed (R211, R212). -/
def Obligations.ErrorsArePrecise : Prop :=
  ∀ (w : CommandWord) (s t : State) (r : Response), execWord w s = .next t → t.ports.rsp = some r → r.err ≠ 0#4 →
    r.data = 0#64 ∧ 1 ≤ r.err.toNat ∧ r.err.toNat ≤ 6 ∧
    t = { s with
      status := { s.status with
        errflags := s.status.errflags ||| (1#6 <<< (r.err.toNat - 1))
        fatal := s.status.fatal || decide (r.err = 5#4) }
      ports := { s.ports with rsp := some r } }

/-- R215: every word that matches no row is answered `E_ILLEGAL` and changes its flag only, except that the fatal gate
comes first. -/
def Obligations.IllegalWordsAreAnswered : Prop :=
  ∀ (w : CommandWord) (s : State), wordWellFormed w = false →
    (s.status.fatal = false ∨ opField w = 0x01#8 ∨ opField w = 0x02#8 →
      execWord w s = .next { s with
        status := { s.status with errflags := s.status.errflags ||| 0b000001#6 }
        ports := { s.ports with rsp := some { err := 1#4, data := 0#64 } } }) ∧
    (s.status.fatal = true → opField w ≠ 0x01#8 → opField w ≠ 0x02#8 →
      execWord w s = .next { s with
        status := { s.status with errflags := s.status.errflags ||| 0b100000#6 }
        ports := { s.ports with rsp := some { err := 6#4, data := 0#64 } } })

/-- R217: while `fatal = 1`, every word whose `op` is neither 0x01 nor 0x02 returns `E_FATAL`; STATUS_READ works
normally, RESET performs the hard reset, and a malformed word with `op` 0x01 or 0x02 returns `E_ILLEGAL`. -/
def Obligations.FatalGateClosesEverything : Prop :=
  ∀ (w : CommandWord) (s : State), s.status.fatal = true →
    (opField w ≠ 0x01#8 → opField w ≠ 0x02#8 →
      execWord w s = .next { s with
        status := { s.status with errflags := s.status.errflags ||| 0b100000#6 }
        ports := { s.ports with rsp := some { err := 6#4, data := 0#64 } } }) ∧
    (w = 0x02000000000000000000#80 →
      execWord w s = .next (s.present { err := 0#4, data := (statusWord s.status).setWidth 64 })) ∧
    (w = 0x01000000000000000000#80 →
      execWord w s = .next { State.reset with ports := {
        input := s.ports.input, stream := [], rsp := some { err := 0#4, data := 0#64 } } }) ∧
    ((opField w = 0x01#8 ∨ opField w = 0x02#8) → (idxField w ≠ 0#8 ∨ dataField w ≠ 0#64) →
      execWord w s = .next { s with
        status := { s.status with errflags := s.status.errflags ||| 0b000001#6 }
        ports := { s.ports with rsp := some { err := 1#4, data := 0#64 } } })

/-- R214: a bit of `errflags` stays set until an ERR_CLEAR that is carried out, which keeps bit 4 only, or a hard
reset; a successful command does not clear it. -/
def Obligations.ErrorFlagsAreSticky : Prop :=
  (∀ (w : CommandWord) (s t : State), execWord w s = .next t →
    (decode w ≠ .ok .reset → (decode w = .ok .errClear → s.status.fatal = true) →
      ∀ k, s.status.errflags.getLsbD k = true → t.status.errflags.getLsbD k = true) ∧
    (decode w ≠ .ok .reset → decode w ≠ .ok .errClear → ∀ r, t.ports.rsp = some r → r.err = 0#4 →
      t.status.errflags = s.status.errflags) ∧
    (decode w = .ok .errClear → s.status.fatal = false →
      ∀ k, t.status.errflags.getLsbD k = (s.status.errflags.getLsbD k && decide (k = 4))) ∧
    (decode w = .ok .reset → t.status.errflags = 0#6)) ∧
  (∀ (s t : State) (x : PortSample) (rest : List PortSample), s.ports.input = x :: rest → x.rst = true →
    step s = .next t → t.status.errflags = 0#6)

/-- `fatal` is set by an `E_RANGE` response only, and cleared by RESET only (R216; 10_state.md R25). -/
def Obligations.FatalIsSetByRangeErrorsOnly : Prop :=
  ∀ (i : Instr) (s t : State) (r : Response), exec i s = .next t → t.ports.rsp = some r → i ≠ .reset →
    t.status.fatal = (s.status.fatal || decide (r.err = 5#4))

/-- R216: an out-of-range ACC_READ or ACC_READ_PCM sets `errflags[4]` and `fatal` and changes nothing else; a run in
progress is not stopped, and can no longer be advanced. -/
def Obligations.OutOfRangeReadIsFatal : Prop :=
  ∀ (s t : State) (format : BitVec 8) (index : Word32), s.status.fatal = false → s.acc.length ≤ index.toNat →
    format.toNat ≤ 4 →
    t = { s with
      status := { s.status with errflags := s.status.errflags ||| 0b010000#6, fatal := true }
      ports := { s.ports with rsp := some { err := 5#4, data := 0#64 } } } →
    exec (.accRead index) s = .next t ∧ exec (.accReadPcm format index) s = .next t ∧
    exec .synthStep t = .next (errorState .fatal t) ∧ exec .synthRun t = .next (errorState .fatal t)

/-- The ten commands refused while a run is in progress, and the six that would draw, refused while `seeded = 0`
(R211; 41_rng.md R113; 70_reset_and_hazards.md R233). -/
def Obligations.StateChecksRefuse : Prop :=
  (∀ (s : State) (number : BitVec 8) (value sample factor : Word32) (seed : Word64),
    s.status.fatal = false → s.status.playing = true → number.toNat < 28 →
    legalParameter number.toNat value = true →
    ∀ i ∈ [.paramWrite number value, .rngSeed seed, .rngNext64, .rngNext32, .rngNextF, .pinkNextV, .pinkNextF,
      .accClear, .accAppend sample, .accScale factor], exec i s = .next (errorState .state s)) ∧
  (∀ s : State, s.status.fatal = false → s.status.seeded = false →
    ∀ i ∈ [Instr.rngNext64, .rngNext32, .rngNextF, .pinkNextV, .pinkNextF, .synthStart],
      exec i s = .next (errorState .state s))

/-! ## System commands (40_system_and_parameters.md, 10_state.md) -/

/-- R91: NOP answers 0 and changes nothing, also while `playing = 1`; its word is all zeros, any other word with its
`op` is illegal, and the fatal gate stops it. -/
def Obligations.NopAnswersZero : Prop :=
  (∀ s : State, s.status.fatal = false → exec .nop s = .next (s.present { err := 0#4, data := 0#64 })) ∧
  (∀ s : State, s.status.fatal = true → exec .nop s = .next (errorState .fatal s)) ∧
  decode 0x00000000000000000000#80 = .ok .nop ∧
  (∀ (w : CommandWord) (s : State), opField w = 0#8 → w ≠ 0#80 → s.status.fatal = false →
    execWord w s = .next (errorState .illegal s))

/-- R34: what hard reset leaves. -/
def Obligations.ResetLeaves : Prop :=
  (∀ n : Fin 28, State.reset.p n =
    if n = 2 ∨ n = 5 then 0x3E99999A#32 else if n = 3 then 0x3ECCCCCD#32 else if n = 16 then 0x3F800000#32
    else if n = 26 then 0x3F000000#32 else if n = 27 then 0x3D4CCCCD#32 else 0#32) ∧
  State.reset.status.playing = false ∧ State.reset.status.seeded = false ∧ State.reset.status.fatal = false ∧
  State.reset.status.stopCause.code = 0#2 ∧ State.reset.status.errflags = 0#6 ∧
  (∀ number : BitVec 8, number.toNat ≤ 0x2A → stateRegister number State.reset = some 0#64) ∧
  (∀ (space : Space) (index : Nat), index < space.length → memRead space index State.reset = 0#32) ∧
  State.reset.accSize = 0#32 ∧ State.reset.acc = []

/-- The two hard resets do the same thing. RESET completes in every state, fatal or playing, and answers 0; `rst` takes
effect whatever else is driven and whatever was waiting, and drops it (R96; 70_reset_and_hazards.md R230). -/
def Obligations.HardResetsComplete : Prop :=
  (∀ s : State, exec .reset s = .next { State.reset with ports := {
    input := s.ports.input, stream := [], rsp := some { err := 0#4, data := 0#64 } } }) ∧
  (∀ (s : State) (x : PortSample) (rest : List PortSample), s.ports.input = x :: rest → x.rst = true →
    step s = .next { State.reset with ports := { input := rest, stream := [], rsp := none } })

/-- STATUS_READ completes in every state and answers the bits of STATUS (R92; 10_state.md R25). -/
def Obligations.StatusReadBits : Prop :=
  ∀ s : State, ∃ v : Word64, exec .statusRead s = .next (s.present { err := 0#4, data := v }) ∧
    v.getLsbD 0 = s.status.playing ∧ v.getLsbD 1 = s.status.seeded ∧ v.getLsbD 2 = s.status.fatal ∧
    v.extractLsb' 3 2 = (match s.status.stopCause with
      | .running => 0#2 | .envelope => 1#2 | .frequencyLimit => 2#2 | .sampleCap => 3#2) ∧
    v.extractLsb' 5 3 = 0#3 ∧ v.extractLsb' 8 6 = s.status.errflags ∧ v.extractLsb' 14 50 = 0#50

/-- ERR_CLEAR completes: every error flag but bit 4 cleared and nothing else changed (R93). -/
def Obligations.ErrClearKeepsTheRangeFlag : Prop :=
  ∀ s : State, s.status.fatal = false → ∃ e : BitVec 6,
    exec .errClear s = .next
      ({ s with status := { s.status with errflags := e } }.present { err := 0#4, data := 0#64 }) ∧
    ∀ k, e.getLsbD k = (s.status.errflags.getLsbD k && decide (k = 4))

/-- STATE_READ answers the 43 registers of R26 in its order, zero-extended; a number above 0x2A is `E_CONFIG`
(R94). -/
def Obligations.StateReadTable : Prop :=
  ∀ (s : State) (number : BitVec 8), s.status.fatal = false →
    (0x2A < number.toNat → exec (.stateRead number) s = .next (errorState .config s)) ∧
    ∀ v : Word64, ([s.phase, s.freq.period, s.freq.fperiod, s.freq.fmaxperiod, s.freq.fslide, s.freq.fdslide,
      s.freq.arpMod, s.freq.squareDuty.setWidth 64, s.freq.squareSlide.setWidth 64, s.freq.arpTime.setWidth 64,
      s.freq.arpLimit.setWidth 64, s.rep.time.setWidth 64, s.rep.limit.setWidth 64,
      (match s.env.stage with | .attack => 0#64 | .sustain => 1#64 | .decay => 2#64 | .stopped => 3#64),
      s.env.time.setWidth 64, s.env.len0.setWidth 64, s.env.len1.setWidth 64, s.env.len2.setWidth 64,
      s.env.vol.setWidth 64, s.flt.fltp.setWidth 64, s.flt.fltdp.setWidth 64, s.flt.fltw.setWidth 64,
      s.flt.fltwD.setWidth 64, s.flt.fltdmp.setWidth 64, s.flt.fltphp.setWidth 64, s.flt.flthp.setWidth 64,
      s.flt.flthpD.setWidth 64, s.vib.phase.setWidth 64, s.vib.speed.setWidth 64, s.vib.amp.setWidth 64,
      s.pha.fphase.setWidth 64, s.pha.fdphase.setWidth 64, s.pha.iphase.setWidth 64, s.pha.ipp.setWidth 64,
      s.lfsr.setWidth 64, s.rng, s.pink.key.setWidth 64, s.pink.w[0].setWidth 64, s.pink.w[1].setWidth 64,
      s.pink.w[2].setWidth 64, s.pink.w[3].setWidth 64, s.pink.w[4].setWidth 64,
      (BitVec.ofNat 32 s.acc.length).setWidth 64] : List Word64)[number.toNat]? = some v →
      exec (.stateRead number) s = .next (s.present { err := 0#4, data := v })

/-- MEM_READ answers the word of the space and changes nothing; an unknown space or an index outside the space is
`E_CONFIG` (R95; 20_memory.md R50). -/
def Obligations.MemReadAnswersTheWord : Prop :=
  ∀ (s : State) (space : BitVec 8) (index : Word32), s.status.fatal = false →
    (space = 0#8 → index.toNat < 1024 → exec (.memRead space index) s =
      .next (s.present { err := 0#4, data := (Memory.read s.phaser index.toNat).setWidth 64 })) ∧
    (space = 1#8 → index.toNat < 32 → exec (.memRead space index) s =
      .next (s.present { err := 0#4, data := (Memory.read s.nwhite index.toNat).setWidth 64 })) ∧
    (space = 2#8 → index.toNat < 32 → exec (.memRead space index) s =
      .next (s.present { err := 0#4, data := (Memory.read s.npink index.toNat).setWidth 64 })) ∧
    (2 < space.toNat ∨ (space = 0#8 ∧ 1024 ≤ index.toNat) ∨ ((space = 1#8 ∨ space = 2#8) ∧ 32 ≤ index.toNat) →
      exec (.memRead space index) s = .next (errorState .config s))

/-! ## Parameter commands (40_system_and_parameters.md) -/

/-- `legal(n, v)` as a condition on bit patterns (R99): the comparisons of R13 say exactly this of them. -/
def Obligations.LegalParameterPatterns : Prop :=
  ∀ (n : Nat) (v : Word32), n < 28 → (legalParameter n v = true ↔
    if n = 0 then v.toNat ≤ 8
    else if n = 24 then v ∈ [0x00000000#32, 0x80000000#32, 0x3F800000#32, 0x40000000#32, 0x40400000#32, 0x40800000#32,
      0x40A00000#32, 0x40C00000#32, 0x40E00000#32, 0x41000000#32, 0x41100000#32, 0x41200000#32, 0x41300000#32,
      0x41400000#32, 0x41500000#32, 0x41600000#32, 0x41700000#32, 0x41800000#32, 0x41880000#32, 0x41900000#32,
      0x41980000#32, 0x41A00000#32, 0x41A80000#32, 0x41B00000#32, 0x41B80000#32, 0x41C00000#32]
    else if n ∈ [6, 7, 10, 15, 17, 20, 21, 22] then
      v.toNat ≤ 0x3F800000 ∨ (0x80000000 ≤ v.toNat ∧ v.toNat ≤ 0xBF800000)
    else v.toNat ≤ 0x3F800000 ∨ v.toNat = 0x80000000)

/-- PARAM_WRITE: the checks in their order, then `P[n] <- v` and nothing else (R97). -/
def Obligations.ParamWriteWritesOneRegister : Prop :=
  ∀ (s : State) (number : BitVec 8) (v : Word32), s.status.fatal = false →
    (28 ≤ number.toNat → exec (.paramWrite number v) s = .next (errorState .config s)) ∧
    (∀ h : number.toNat < 28,
      (legalParameter number.toNat v = false → exec (.paramWrite number v) s = .next (errorState .config s)) ∧
      (legalParameter number.toNat v = true → s.status.playing = true →
        exec (.paramWrite number v) s = .next (errorState .state s)) ∧
      (legalParameter number.toNat v = true → s.status.playing = false →
        exec (.paramWrite number v) s =
          .next ({ s with params := s.params.set number.toNat v h }.present { err := 0#4, data := 0#64 })))

/-- PARAM_READ answers the register, also during a run; a number above 27 is `E_CONFIG` (R98). -/
def Obligations.ParamReadAnswersTheRegister : Prop :=
  ∀ (s : State) (number : BitVec 8), s.status.fatal = false →
    (28 ≤ number.toNat → exec (.paramRead number) s = .next (errorState .config s)) ∧
    (∀ h : number.toNat < 28, exec (.paramRead number) s =
      .next (s.present { err := 0#4, data := (s.params[number.toNat]'h).setWidth 64 }))

/-- Only PARAM_WRITE, outside a run, and RESET change a parameter; so no run sees a parameter change
(20_memory.md R63). -/
def Obligations.ParametersChangeOnlyByWrites : Prop :=
  ∀ (i : Instr) (s t : State), exec i s = .next t → i ≠ .reset → t.params ≠ s.params →
    s.status.playing = false ∧ ∃ number v, i = .paramWrite number v ∧ legalParameter number.toNat v = true

/-! ## The random-number generator (41_rng.md) -/

/-- R112: the xorshift* step. The advance is invertible, and a state that is not 0 never becomes 0. -/
def Obligations.Next64IsXorshiftStar : Prop :=
  (∀ (s : State) (x1 x2 x3 : Word64), x1 = s.rng ^^^ (s.rng >>> 12) → x2 = x1 ^^^ (x1 <<< 25) →
    x3 = x2 ^^^ (x2 >>> 27) → next64 s = (x3 * 0x2545F4914F6CDD1D#64, { s with rng := x3 })) ∧
  (∀ x y : Word64, xorshift x = xorshift y → x = y) ∧
  (∀ s : State, s.rng ≠ 0#64 → (next64 s).2.rng ≠ 0#64)

/-- RNG_SEED outside a run: the seed constant, `seeded`, and the pink construction with its five draws
(R111; 42_pink_noise.md R121). -/
def Obligations.RngSeedMakesFiveDraws : Prop :=
  ∀ (s : State) (seed r : Word64), s.status.fatal = false → s.status.playing = false →
    r = 0x9E3779B97F4A7C15#64 ^^^ seed →
    exec (.rngSeed seed) s = .next ({ s with
      rng := xorshift^[5] r
      status := { s.status with seeded := true }
      pink := { key := 0#5, w := #v[draw32 r 0 % 13107#32, draw32 r 1 % 13107#32, draw32 r 2 % 13107#32,
        draw32 r 3 % 13107#32, draw32 r 4 % 13107#32] } }.present { err := 0#4, data := 0#64 })

/-- RNG_NEXT64, RNG_NEXT32 and RNG_NEXTF, seeded and outside a run, make one draw and write `rng_state` only
(R114 to R116). -/
def Obligations.RngDrawsAdvanceOnce : Prop :=
  ∀ s : State, s.status.fatal = false → s.status.seeded = true → s.status.playing = false →
    exec .rngNext64 s = .next ({ s with rng := xorshift s.rng }.present
      { err := 0#4, data := xorshift s.rng * 0x2545F4914F6CDD1D#64 }) ∧
    exec .rngNext32 s = .next ({ s with rng := xorshift s.rng }.present
      { err := 0#4, data := (draw32 s.rng 0).setWidth 64 }) ∧
    exec .rngNextF s = .next ({ s with rng := xorshift s.rng }.present
      { err := 0#4, data := (nextFloat s).1.setWidth 64 })

/-- `NextFloat()` is exactly `k / 2^24` for the top 24 bits `k` of the draw; it is never 1.0 (R116). -/
def Obligations.NextFloatIsExact : Prop :=
  ∀ s : State,
    binary32.unpack (nextFloat s).1.toNat = .fin false ((draw32 s.rng 0).toNat / 2 ^ 8 * 2 ^ 125) ∧
    (nextFloat s).1.toNat ≤ 0x3F7FFFFF

/-- In the degenerate state every draw is 0, the state stays, and refreshes leave every bank word -1.0 (R117). -/
def Obligations.DegenerateStateDrawsZero : Prop :=
  ∀ s : State, s.rng = 0#64 → s.pink.w = #v[0#32, 0#32, 0#32, 0#32, 0#32] →
    next64 s = (0#64, s) ∧ (nextFloat s).1 = 0#32 ∧
    (refreshPink (refreshWhite s)).rng = 0#64 ∧
    ∀ index, index < 32 → memRead .nwhite index (refreshPink (refreshWhite s)) = 0xBF800000#32 ∧
      memRead .npink index (refreshPink (refreshWhite s)) = 0xBF800000#32

/-- No command but RNG_SEED and RESET does anything to `rng_state` but draw, and none but these two changes `seeded`. A
refused command draws nothing; an accepted one makes exactly its draws of 70_reset_and_hazards.md R242: none, 1, those of
the pink counter, 94, or those of its phase wraps, at most eight wraps for each sample appended (R110). -/
def Obligations.OnlySeedingReseeds : Prop :=
  ∀ (i : Instr) (s t : State) (r : Response), exec i s = .next t → t.ports.rsp = some r → i ≠ .reset →
    (∀ seed, i ≠ .rngSeed seed) →
    t.status.seeded = s.status.seeded ∧
    (r.err ≠ 0#4 → t.rng = s.rng) ∧
    (r.err = 0#4 → ∃ n, drawsOf i s (t.acc.length - s.acc.length) n ∧ t.rng = xorshift^[n] s.rng)

/-! ## Pink noise (42_pink_noise.md) -/

/-- PINK_NEXTV, seeded and outside a run: the counter goes on by one, the sub-generators whose bit flipped take the
next draws in ascending order, the others stay, the response is the sum, and nothing else changes (R122, R124). With
the sub-generators below 13107 the sum does not wrap and is at most 65530. -/
def Obligations.PinkNextValueRedrawsFlippedBits : Prop :=
  ∀ s : State, s.status.fatal = false → s.status.seeded = true → s.status.playing = false →
    ∃ w : Vector Word32 5,
      exec .pinkNextV s = .next ({ s with
        rng := xorshift^[pinkDraws s.pink.key] s.rng
        pink := { key := s.pink.key + 1#5, w := w } }.present { err := 0#4, data := (pinkSum w).setWidth 64 }) ∧
      (∀ i : Fin 5, w[i] =
        if i.val < pinkDraws s.pink.key then draw32 s.rng i.val % 13107#32 else s.pink.w[i]) ∧
      ((∀ i : Fin 5, s.pink.w[i].toNat < 13107) →
        (pinkSum w).toNat = w[0].toNat + w[1].toNat + w[2].toNat + w[3].toNat + w[4].toNat ∧
        (pinkSum w).toNat ≤ 65530 ∧ ∀ i : Fin 5, w[i].toNat < 13107)

/-- PINK_NEXTF leaves the state PINK_NEXTV leaves and answers the sum divided by 65536, exactly (R123, R125). -/
def Obligations.PinkNextFloatIsExact : Prop :=
  ∀ s : State, s.status.fatal = false → s.status.seeded = true → s.status.playing = false →
    ∃ v : F32, exec .pinkNextF s = .next ((pinkNextValue s).2.present { err := 0#4, data := v.setWidth 64 }) ∧
      ((∀ i : Fin 5, s.pink.w[i].toNat < 13107) →
        binary32.unpack v.toNat = .fin false ((pinkNextValue s).1.toNat * 2 ^ 133) ∧ v.toNat ≤ 0x3F7FFA00)

/-- A fill of the pink bank brings the counter back and makes exactly 62 draws; one of the white bank makes exactly 32
(R126; 45_synth_datapath.md R182). -/
def Obligations.BankFillsDraw : Prop :=
  (∀ s : State, (refreshPink s).pink.key = s.pink.key ∧ (refreshPink s).rng = xorshift^[62] s.rng) ∧
  (∀ s : State, (refreshWhite s).pink = s.pink ∧ (refreshWhite s).rng = xorshift^[32] s.rng)

/-- The banks after a fill: word `i` of the white bank is exactly `k / 2^23 - 1` for the top 24 bits `k` of the fill's draw
`i`; word `i` of the pink bank is exactly `n / 32768 - 1` for the sum `n` of the fill's `PinkNextValue()` number `i`
(R182; 44_synth_control.md R158). -/
def Obligations.WhiteBankWordsAreExact : Prop :=
  (∀ (s : State) (index k : Nat), Memory.wf 32 s.nwhite = true → index < 32 →
    k = (draw32 s.rng index).toNat / 2 ^ 8 →
    binary32.unpack (memRead .nwhite index (refreshWhite s)).toNat =
      .fin (decide (k < 2 ^ 23)) (((k : Int) - 2 ^ 23).natAbs * 2 ^ 126)) ∧
  (∀ (s : State) (index n : Nat), Memory.wf 32 s.npink = true → (∀ i : Fin 5, s.pink.w[i].toNat < 13107) → index < 32 →
    n = (pinkNextValue ((fun u => (pinkNextValue u).2)^[index] s)).1.toNat →
    n ≤ 65530 ∧ binary32.unpack (memRead .npink index (refreshPink s)).toNat =
      .fin (decide (n < 32768)) (((n : Int) - 32768).natAbs * 2 ^ 134))

/-! ## The accumulator (43_accumulator.md) -/

/-- ACC_CLEAR and ACC_APPEND outside a run, each with its whole effect (R131, R132). That a full accumulator is tested
with `>=` is the model's (log 14). -/
def Obligations.AccClearAndAppend : Prop :=
  ∀ (s : State) (v : F32), s.status.fatal = false → s.status.playing = false →
    exec .accClear s = .next ({ s with acc := [] }.present { err := 0#4, data := 0#64 }) ∧
    (s.acc.length < 1048576 → exec (.accAppend v) s =
      .next ({ s with acc := s.acc ++ [v] }.present { err := 0#4, data := BitVec.ofNat 64 (s.acc.length + 1) })) ∧
    (s.acc.length = 1048576 → exec (.accAppend v) s = .next (errorState .full s))

/-- ACC_SIZE, ACC_READ and ACC_READ_PCM complete at any time, also during a run, and change nothing
(R133, R134, R139). -/
def Obligations.AccReadsAnswer : Prop :=
  ∀ (s : State) (format : BitVec 8) (f : SampleFormat) (index : Word32), s.status.fatal = false →
    exec .accSize s = .next (s.present { err := 0#4, data := (BitVec.ofNat 32 s.acc.length).setWidth 64 }) ∧
    (∀ h : index.toNat < s.acc.length, exec (.accRead index) s =
      .next (s.present { err := 0#4, data := (s.acc[index.toNat]'h).setWidth 64 })) ∧
    (4 < format.toNat → exec (.accReadPcm format index) s = .next (errorState .config s)) ∧
    (∀ h : index.toNat < s.acc.length, SampleFormat.ofCode format = some f → exec (.accReadPcm format index) s =
      .next (s.present { err := 0#4, data := (pcm f (s.acc[index.toNat]'h)).setWidth 64 }))

/-- ACC_SCALE outside a run: each sample, in place, times the factor in one binary32 multiplication; the product by
1.0f is the sample bit for bit, and the quiet NaN for a NaN (R135; 00_scope.md R13). -/
def Obligations.AccScaleMultipliesEachSample : Prop :=
  (∀ v : F32, mul32 v 0x3F800000#32 = if isNaN32 v then 0x7FC00000#32 else v) ∧
  ∀ (s : State) (factor : F32), s.status.fatal = false → s.status.playing = false → ∃ samples : List F32,
    exec (.accScale factor) s = .next ({ s with acc := samples }.present { err := 0#4, data := 0#64 }) ∧
    samples.length = s.acc.length ∧
    ∀ (k : Nat) (v : F32), s.acc[k]? = some v → samples[k]? = some (mul32 v factor)

/-- ACC_PEAKMEAN: mean in the high half, peak in the low half, nothing changed. The peak is 0 or the magnitude of a
sample and no sample's magnitude is above it; a NaN is never the peak (R136). -/
def Obligations.AccPeakMeanAnswers : Prop :=
  ∀ s : State, s.status.fatal = false → ∃ mean peak : F32,
    exec .accPeakMean s = .next (s.present { err := 0#4, data := mean ++ peak }) ∧
    (s.acc = [] → mean = 0#32 ∧ peak = 0#32) ∧
    (s.acc ≠ [] → mean = narrow (div64 (s.acc.foldl (fun sum v => add64 sum (widen (abs32 v))) 0#64)
      (nat64 s.acc.length))) ∧
    (peak = 0#32 ∨ ∃ v ∈ s.acc, peak = abs32 v) ∧ isNaN32 peak = false ∧
    ∀ v ∈ s.acc, lt32 peak (abs32 v) = false

/-- `Pcm(fmt, v)`. F32 is the bits unchanged. A PCM sample of N bits is below `2^N` and its two's-complement value is
between `-maxAmp` and `maxAmp`, so `-maxAmp - 1` is never produced; a NaN gives 0; a product at or beyond an end gives the
end; and between the ends a product `x` of magnitude `k * 2^-1074` gives the nearest integer with its sign, ties away from
zero: the `n` with `n <= |x| + 1/2 < n + 1`, here times `2^1075` (R137, R138). -/
def Obligations.PcmStaysInRange : Prop :=
  (∀ v : F32, pcm .f32 v = v) ∧
  ∀ (f : SampleFormat) (v : F32) (x : F64) (bits maxAmp : Nat),
    (f, bits, maxAmp) ∈ [(.pcm8, 8, 127), (.pcm16, 16, 32767), (.pcm24, 24, 8388607), (.pcm32, 32, 2147483647)] →
    x = mul64 (widen v) (nat64 maxAmp) →
    (pcm f v).toNat < 2 ^ bits ∧
    -(maxAmp : Int) ≤ Int.bmod (pcm f v).toNat (2 ^ bits) ∧ Int.bmod (pcm f v).toNat (2 ^ bits) ≤ maxAmp ∧
    (isNaN32 v = true → pcm f v = 0#32) ∧
    (v = 0x3F800000#32 → Int.bmod (pcm f v).toNat (2 ^ bits) = maxAmp) ∧
    (v = 0xBF800000#32 → Int.bmod (pcm f v).toNat (2 ^ bits) = -(maxAmp : Int)) ∧
    (le64 (nat64 maxAmp) x = true → Int.bmod (pcm f v).toNat (2 ^ bits) = maxAmp) ∧
    (le64 x (neg64 (nat64 maxAmp)) = true → Int.bmod (pcm f v).toNat (2 ^ bits) = -(maxAmp : Int)) ∧
    (∀ (neg : Bool) (k : Nat), isNaN32 v = false → le64 (nat64 maxAmp) x = false →
      le64 x (neg64 (nat64 maxAmp)) = false → binary64.unpack x.toNat = .fin neg k → ∃ n : Nat,
        Int.bmod (pcm f v).toNat (2 ^ bits) = (if neg then -(n : Int) else (n : Int)) ∧
        n * 2 ^ 1075 ≤ 2 * k + 2 ^ 1074 ∧ 2 * k + 2 ^ 1074 < (n + 1) * 2 ^ 1075)

/-- ACC_STREAM: all samples in ascending order, each as its format's bytes, least significant first; `so_last` on the
last byte only; the response is the number of bytes; nothing but the ports changes (R140, R137). -/
def Obligations.AccStreamEmitsTheBytes : Prop :=
  ∀ (s : State) (format : BitVec 8), s.status.fatal = false →
    (4 < format.toNat → exec (.accStream format) s = .next (errorState .config s)) ∧
    (∀ (f : SampleFormat) (b : Nat), (f, format, b) ∈
        [(.f32, 0#8, 4), (.pcm8, 1#8, 1), (.pcm16, 2#8, 2), (.pcm24, 3#8, 3), (.pcm32, 4#8, 4)] →
      ∃ bytes : List StreamByte,
        exec (.accStream format) s = .next { s with ports := { s.ports with
          stream := bytes
          rsp := some { err := 0#4, data := BitVec.ofNat 64 (s.acc.length * b) } } } ∧
        bytes.length = s.acc.length * b ∧
        ∀ (n k : Nat) (v : F32), s.acc[n]? = some v → k < b → bytes[n * b + k]? = some
          { byte := (pcm f v).extractLsb' (8 * k) 8, last := decide (n + 1 = s.acc.length ∧ k + 1 = b) })

/-- R52: the accumulator is append-only between clears. But for ACC_SCALE, which keeps the number of samples, every
command leaves the samples there are and appends; `acc_size` decreases to 0 only, by ACC_CLEAR, SYNTH_START, RESET. -/
def Obligations.AccumulatorIsAppendOnly : Prop :=
  ∀ (i : Instr) (s t : State), exec i s = .next t →
    (i ≠ .accClear → i ≠ .synthStart → i ≠ .reset → (∀ f, i ≠ .accScale f) → s.acc <+: t.acc) ∧
    (∀ f, i = .accScale f → t.acc.length = s.acc.length) ∧
    (t.acc.length < s.acc.length → t.acc = [] ∧ (i = .accClear ∨ i = .synthStart ∨ i = .reset))

/-! ## Control of the engine (44_synth_control.md) -/

/-- SYNTH_START, seeded, also during a run: the accumulator empty, a run in progress, every engine register from the
parameters, the ring zero, 94 draws, the pink counter back where it was, and no parameter changed (R151, R152, R158). The
first clauses are the register groups, with the literals of 00_scope.md R12: frequency (R154), envelope (R155), filters
(R156), vibrato (R157), phaser (R158) and repeat (R159). -/
def Obligations.SynthStartStartsARun : Prop :=
  (∀ (p : Vector Word32 28) (bf fl fr fd am : F64) (t : F32), bf = widen p[5] → fl = widen p[8] → fr = widen p[6] →
    fd = widen p[7] → am = widen p[15] → t = sub32 0x3F800000#32 p[14] →
    resetFrequency p = {
      period := div64 0x4059000000000000#64 (add64 (mul64 bf bf) 0x3F50624DD2F1A9FC#64)
      fperiod := div64 0x4059000000000000#64 (add64 (mul64 bf bf) 0x3F50624DD2F1A9FC#64)
      fmaxperiod := div64 0x4059000000000000#64 (add64 (mul64 fl fl) 0x3F50624DD2F1A9FC#64)
      fslide := sub64 0x3FF0000000000000#64 (mul64 (mul64 (mul64 fr fr) fr) 0x3F847AE147AE147B#64)
      fdslide := neg64 (mul64 (mul64 (mul64 fd fd) fd) 0x3EB0C6F7A0B5ED8D#64)
      arpMod := if le32 0#32 p[15] then sub64 0x3FF0000000000000#64 (mul64 (mul64 am am) 0x3FECCCCCCCCCCCCD#64)
        else add64 0x3FF0000000000000#64 (mul64 (mul64 am am) 0x4024000000000000#64)
      squareDuty := sub32 0x3F000000#32 (mul32 p[9] 0x3F000000#32)
      squareSlide := mul32 (neg32 p[10]) 0x3851B717#32
      arpTime := 0#32
      arpLimit := if eq32 p[14] 0x3F800000#32 then 0#32
        else truncU32 (add32 (mul32 (mul32 t t) 0x469C4000#32) 0x42000000#32) }) ∧
  (∀ p : Vector Word32 28, resetEnvelope p = {
      stage := .attack, time := 0#32, vol := 0#32
      len0 := truncU32 (mul32 (mul32 p[1] p[1]) 0x47C35000#32)
      len1 := truncU32 (mul32 (mul32 p[2] p[2]) 0x47C35000#32)
      len2 := truncU32 (mul32 (mul32 p[3] p[3]) 0x47C35000#32) }) ∧
  (∀ (p : Vector Word32 28) (w d : F32), w = mul32 (mul32 (mul32 p[16] p[16]) p[16]) 0x3DCCCCCD#32 →
    d = mul32 (div32 0x40A00000#32 (add32 0x3F800000#32 (mul32 (mul32 p[18] p[18]) 0x41A00000#32)))
      (add32 0x3C23D70A#32 w) →
    resetFilters p = {
      fltp := 0#32, fltdp := 0#32, fltw := w, fltphp := 0#32
      fltwD := add32 0x3F800000#32 (mul32 p[17] 0x38D1B717#32)
      fltdmp := if lt32 0x3F4CCCCD#32 d then 0x3F4CCCCD#32 else d
      flthp := mul32 (mul32 p[19] p[19]) 0x3DCCCCCD#32
      flthpD := add32 0x3F800000#32 (mul32 p[20] 0x399D4952#32) }) ∧
  (∀ p : Vector Word32 28, resetVibrato p = {
      phase := 0#32, speed := mul32 (mul32 p[12] p[12]) 0x3C23D70A#32, amp := mul32 p[11] 0x3F000000#32 }) ∧
  (∀ (p : Vector Word32 28) (x y : F32), x = mul32 (mul32 p[21] p[21]) 0x447F0000#32 → y = mul32 p[22] p[22] →
    (resetPhaser p).fphase = (if lt32 p[21] 0#32 then neg32 x else x) ∧
    (resetPhaser p).fdphase = (if lt32 p[22] 0#32 then neg32 y else y) ∧
    (resetPhaser p).iphase.toNat = min 1023 (truncI32 (resetPhaser p).fphase).toInt.natAbs ∧
    (resetPhaser p).ipp = 0#10) ∧
  (∀ (p : Vector Word32 28) (t : F32), t = sub32 0x3F800000#32 p[23] → resetRepeat p = {
      time := 0#32
      limit := if eq32 p[23] 0#32 then 0#32
        else truncU32 (add32 (mul32 (mul32 t t) 0x469C4000#32) 0x42000000#32) }) ∧
  ∀ s : State, s.status.fatal = false → s.status.seeded = true → ∃ t : State,
    exec .synthStart s = .next t ∧ t.params = s.params ∧ t.acc = [] ∧
    t.status = { s.status with playing := true, stopCause := .running } ∧
    t.phase = 0#64 ∧ t.freq = resetFrequency s.params ∧ t.env = resetEnvelope s.params ∧
    t.flt = resetFilters s.params ∧ t.vib = resetVibrato s.params ∧ t.pha = resetPhaser s.params ∧
    t.rep = resetRepeat s.params ∧ t.lfsr = 0x0001#15 ∧
    (∀ index, memRead .phaser index t = 0#32) ∧ t.nwhite = (refreshWhite s).nwhite ∧
    t.npink = (refreshPink (refreshWhite s)).npink ∧ t.pink = (refreshPink (refreshWhite s)).pink ∧
    t.pink.key = s.pink.key ∧ t.rng = xorshift^[94] s.rng ∧
    t.ports = { s.ports with rsp := some { err := 0#4, data := 0#64 } }

/-- The stage durations of parameters in range are at most 100000 iterations and the arpeggio and repeat limits are
between 32 and 20032 (R154, R155, R159; 90_conflicts.md C8). The truncations discard the fraction: `trunc_u32` of
every value from 0 up to below `2^31`, both zeros among them, and `trunc_i32` of every value of a magnitude below `2^31`
(00_scope.md R15). -/
def Obligations.DerivedCountsAreBounded : Prop :=
  (∀ x : F32, le32 0#32 x = true → le32 x 0x3F800000#32 = true →
    (stageLength x).toNat ≤ 100000 ∧ 32 ≤ (speedLimit x).toNat ∧ (speedLimit x).toNat ≤ 20032) ∧
  (∀ (x : F32) (neg : Bool) (k : Nat), binary32.unpack x.toNat = .fin neg k → (neg = true → k = 0) →
    k < 2 ^ 31 * 2 ^ 149 → (truncU32 x).toNat = k / 2 ^ 149) ∧
  (∀ (x : F64) (neg : Bool) (k : Nat), binary64.unpack x.toNat = .fin neg k → (neg = true → k = 0) →
    k < 2 ^ 31 * 2 ^ 1074 → (truncU64 x).toNat = k / 2 ^ 1074) ∧
  (∀ (x : F32) (neg : Bool) (k : Nat), binary32.unpack x.toNat = .fin neg k → k < 2 ^ 31 * 2 ^ 149 →
    (truncI32 x).toInt = if neg then -((k / 2 ^ 149 : Nat) : Int) else ((k / 2 ^ 149 : Nat) : Int))

/-- Step 1: the repeat counter, and the soft reset at its limit, which writes the frequency and envelope groups and
nothing else. Step 2 touches the frequency group only: with no limit, or below it, `arp_time` goes on and all else stays;
at the limit the period is multiplied once and the limit cleared, and after that it is changed no more
(R153, R162, R163). -/
def Obligations.RepeatAndArpeggioTrigger : Prop :=
  (∀ s : State, arpeggioStep s = { s with freq := arpeggio s.freq }) ∧
  (∀ f : FreqRegs, f.arpLimit = 0#32 ∨ (f.arpTime + 1#32).toNat < f.arpLimit.toNat →
    arpeggio f = { f with arpTime := f.arpTime + 1#32 }) ∧
  (∀ (f : FreqRegs) (n : Nat), f.arpLimit ≠ 0#32 → f.arpLimit.toNat ≤ (f.arpTime + 1#32).toNat →
    arpeggio f = { f with
      arpTime := f.arpTime + 1#32, arpLimit := 0#32, fperiod := mul64 f.fperiod f.arpMod } ∧
    (arpeggio^[n] (arpeggio f)).fperiod = mul64 f.fperiod f.arpMod) ∧
  ∀ s : State,
    (s.rep.limit ≠ 0#32 → s.rep.limit.toNat ≤ (s.rep.time + 1#32).toNat → repeatStep s = { s with
      rep := { s.rep with time := 0#32 }, freq := resetFrequency s.params, env := resetEnvelope s.params }) ∧
    (s.rep.limit = 0#32 ∨ (s.rep.time + 1#32).toNat < s.rep.limit.toNat →
      repeatStep s = { s with rep := { s.rep with time := s.rep.time + 1#32 } })

/-- What steps 3 to 5 compute, each with its frame, in every state. The slide: `fslide + fdslide`, then the product with
the stored period, then the limit, which ends the run where `P[8] > 0`. The effective period: modulated where
`vib_amp > 0`, the stored period kept, and at least 8.0. The ramps: duty and high-pass coefficient, clamped. So the stored
period is left not above its limit, the effective one at least 8.0, the two others in their clamps or a NaN
(R164 to R166). -/
def Obligations.ControlStepsClamp : Prop :=
  ∀ (s : State) (fslide fperiod rfperiod : F64) (phase duty hp : F32),
    fslide = add64 s.freq.fslide s.freq.fdslide → fperiod = mul64 s.freq.fperiod fslide →
    phase = add32 s.vib.phase s.vib.speed →
    rfperiod = mul64 s.freq.fperiod
      (add64 0x3FF0000000000000#64 (mul64 (fsin (widen phase)) (widen s.vib.amp))) →
    duty = add32 s.freq.squareDuty s.freq.squareSlide → hp = mul32 s.flt.flthp s.flt.flthpD →
    (lt64 s.freq.fmaxperiod fperiod = false →
      slideStep s = { s with freq := { s.freq with fslide := fslide, fperiod := fperiod } }) ∧
    (lt64 s.freq.fmaxperiod fperiod = true → lt32 0#32 (s.p 8) = false →
      slideStep s = { s with freq := { s.freq with fslide := fslide, fperiod := s.freq.fmaxperiod } }) ∧
    (lt64 s.freq.fmaxperiod fperiod = true → lt32 0#32 (s.p 8) = true →
      slideStep s = { s with
        freq := { s.freq with fslide := fslide, fperiod := s.freq.fmaxperiod }
        status := { s.status with playing := false, stopCause := .frequencyLimit } }) ∧
    (lt32 0#32 s.vib.amp = true → vibratoStep s = { s with
      vib := { s.vib with phase := phase }
      freq := { s.freq with
        period := if le64 0x4020000000000000#64 rfperiod then rfperiod else 0x4020000000000000#64 } }) ∧
    (lt32 0#32 s.vib.amp = false → vibratoStep s = { s with freq := { s.freq with
      period := if le64 0x4020000000000000#64 s.freq.fperiod then s.freq.fperiod else 0x4020000000000000#64 } }) ∧
    rampStep s = { s with
      freq := { s.freq with
        squareDuty := if lt32 duty 0#32 then 0#32 else if lt32 0x3F000000#32 duty then 0x3F000000#32 else duty }
      flt := { s.flt with
        flthp := if lt32 hp 0x3727C5AC#32 then 0x3727C5AC#32 else if lt32 0x3DCCCCCD#32 hp then 0x3DCCCCCD#32
          else hp } } ∧
    lt64 (slideStep s).freq.fmaxperiod (slideStep s).freq.fperiod = false ∧
    le64 0x4020000000000000#64 (vibratoStep s).freq.period = true ∧
    (isNaN32 (rampStep s).freq.squareDuty = true ∨
      (le32 0#32 (rampStep s).freq.squareDuty = true ∧ le32 (rampStep s).freq.squareDuty 0x3F000000#32 = true)) ∧
    (isNaN32 (rampStep s).flt.flthp = true ∨
      (le32 0x3727C5AC#32 (rampStep s).flt.flthp = true ∧ le32 (rampStep s).flt.flthp 0x3DCCCCCD#32 = true))

/-- The stage advance is the loop of R167. A stage whose time is below its duration is kept, and so is Stopped; one whose
time has reached its duration gives way to the next stage with a nonzero duration, else to Stopped, and the time restarts.
Durations and volume stay, a further pass changes nothing, and the time of the stage it leaves is below its duration. -/
def Obligations.StageAdvanceIsComplete : Prop :=
  ∀ e : EnvRegs,
    (e.stage = .attack → e.time.toNat < e.len0.toNat → advanceStages e = e) ∧
    (e.stage = .sustain → e.time.toNat < e.len1.toNat → advanceStages e = e) ∧
    (e.stage = .decay → e.time.toNat < e.len2.toNat → advanceStages e = e) ∧
    (e.stage = .stopped → advanceStages e = e) ∧
    (e.stage = .attack → e.len0.toNat ≤ e.time.toNat → advanceStages e = { e with
      stage := if e.len1 ≠ 0#32 then .sustain else if e.len2 ≠ 0#32 then .decay else .stopped, time := 0#32 }) ∧
    (e.stage = .sustain → e.len1.toNat ≤ e.time.toNat → advanceStages e = { e with
      stage := if e.len2 ≠ 0#32 then .decay else .stopped, time := 0#32 }) ∧
    (e.stage = .decay → e.len2.toNat ≤ e.time.toNat → advanceStages e = { e with stage := .stopped, time := 0#32 }) ∧
    advanceStage (advanceStages e) = advanceStages e ∧
    (advanceStages e).len0 = e.len0 ∧ (advanceStages e).len1 = e.len1 ∧ (advanceStages e).len2 = e.len2 ∧
    (advanceStages e).vol = e.vol ∧
    ((advanceStages e).stage = .attack → (advanceStages e).time.toNat < (advanceStages e).len0.toNat) ∧
    ((advanceStages e).stage = .sustain → (advanceStages e).time.toNat < (advanceStages e).len1.toNat) ∧
    ((advanceStages e).stage = .decay → (advanceStages e).time.toNat < (advanceStages e).len2.toNat) ∧
    ((advanceStages e).stage ≠ e.stage → (advanceStages e).time = 0#32)

/-- At the sample cap SYNTH_STEP ends the run with `stop_cause` 3 and does nothing else (R161, R171). -/
def Obligations.SampleCapEndsTheRun : Prop :=
  ∀ s : State, s.status.fatal = false → s.status.playing = true → s.acc.length = 1048576 →
    exec .synthStep s = .next ({ s with
      status := { s.status with playing := false, stopCause := .sampleCap } }.present { err := 0#4, data := 0#64 })

/-- SYNTH_STEP completes. With no run in progress it does nothing. In a run it is decided in this order (R160): at the
sample cap it ends with cause 3 and nothing else (R161); with the slid period above its limit and `P[8] > 0` it ends with
cause 2 after step 3 (R164); with the envelope advanced to Stopped it ends with cause 1 after that (R167); else it appends
one sample `v` and answers it (R171). An end appends nothing, touches no noise state, ring or filter, and answers 0.
`v` is made of steps 1 to 7 (`m`; R162 to R169), then of eight times phase, waveform, filters, phaser and volume (step 8;
45_synth_datapath.md R180, R197), then of average, decimation, compression, volume and clip (step 9; R198 to R203). With
it `env_time` and, eight times, `ipp` have gone on by one, and only the eight ring words written, and only the bank, the
pink state, `rng_state` or the LFSR of the wave type, have changed. The clauses before are the waveforms (R184 to R193),
the filters (R194, R195), the decimation with its truncation (R199), the compression (R200) and the volume (R201). -/
def Obligations.SynthStepAppendsOrEnds : Prop :=
  (∀ (u : State) (fp : F32) (index : Nat), fp = narrow (div64 u.phase u.freq.period) →
    index = min 31 (truncU64 (div64 (mul64 u.phase 0x4040000000000000#64) u.freq.period)).toNat →
    (u.p 0 = 0#32 → waveform u = if lt32 fp u.freq.squareDuty then 0x3F000000#32 else 0xBF000000#32) ∧
    (u.p 0 = 1#32 → waveform u = sub32 0x3F800000#32 (mul32 fp 0x40000000#32)) ∧
    (u.p 0 = 2#32 → waveform u = narrow (fsin (mul64 (widen fp) 0x401921FB54442D18#64))) ∧
    (u.p 0 = 3#32 → waveform u = memRead .nwhite index u) ∧
    (u.p 0 = 4#32 → waveform u =
      sub32 (abs32 (sub32 0x3F800000#32 (mul32 fp 0x40000000#32))) 0x3F800000#32) ∧
    (u.p 0 = 5#32 → waveform u = memRead .npink index u) ∧
    (u.p 0 = 6#32 → waveform u = narrow (ftan (mul64 (widen fp) 0x401921FB54442D18#64))) ∧
    (u.p 0 = 7#32 → waveform u =
      sub32 (abs32 (sub32 0x3F800000#32 (mul32 (mul32 fp fp) 0x40000000#32))) 0x3F800000#32) ∧
    (u.p 0 = 8#32 → waveform u = if u.lfsr.getLsbD 0 then 0x3F000000#32 else 0xBF000000#32)) ∧
  (∀ (cutoff x y w d p h : F32) (g : FilterRegs), y = mul32 g.fltw g.fltwD →
    w = (if lt32 y 0#32 then 0#32 else if lt32 0x3DCCCCCD#32 y then 0x3DCCCCCD#32 else y) →
    (if eq32 cutoff 0x3F800000#32 then d = 0#32 ∧ p = add32 x d
      else ∃ d', d' = add32 g.fltdp (mul32 (sub32 x g.fltp) w) ∧ d = sub32 d' (mul32 d' g.fltdmp) ∧
        p = add32 g.fltp d) →
    h = add32 g.fltphp (sub32 p g.fltp) →
    filters cutoff x g = { g with fltw := w, fltdp := d, fltp := p, fltphp := sub32 h (mul32 h g.flthp) }) ∧
  (∀ (depth x m : F32) (neg : Bool) (bits : Nat), bits ≤ 24 → (neg = true → bits = 0) →
    binary32.unpack depth.toNat = .fin neg (bits * 2 ^ 149) → m.toNat = 0x3F800000 + bits * 2 ^ 23 →
    decimate depth x = if bits = 0 then x else div32 (truncf32 (mul32 x m)) m) ∧
  (∀ (x : F32) (neg : Bool) (k : Nat), binary32.unpack x.toNat = .fin neg k →
    binary32.unpack (truncf32 x).toNat = .fin neg (k / 2 ^ 149 * 2 ^ 149)) ∧
  (∀ exponent x a : F32, a = narrow (fpow (widen (abs32 x)) (widen exponent)) → compress exponent x =
    if lt32 0#32 exponent then x.extractLsb' 31 1 ++ a.extractLsb' 0 31 else x) ∧
  (∀ master sound x : F32, volume master sound x = mul32 (mul32 x master) (mul32 0x40000000#32 sound)) ∧
  ∀ s : State, s.status.fatal = false →
    (s.status.playing = false → exec .synthStep s = .next (s.present { err := 0#4, data := 0#64 })) ∧
    ∀ (r : State) (fslide fperiod : F64) (e : EnvRegs), s.status.playing = true →
      r = arpeggioStep (repeatStep s) → fslide = add64 r.freq.fslide r.freq.fdslide →
      fperiod = mul64 r.freq.fperiod fslide → e = advanceStages r.env →
      ∃ t : State, exec .synthStep s = .next t ∧
      t.params = s.params ∧ t.vib.speed = s.vib.speed ∧ t.vib.amp = s.vib.amp ∧ t.rep.limit = s.rep.limit ∧
      t.pha.fdphase = s.pha.fdphase ∧ t.flt.fltwD = s.flt.fltwD ∧ t.flt.fltdmp = s.flt.fltdmp ∧
      t.flt.flthpD = s.flt.flthpD ∧ t.status.seeded = s.status.seeded ∧ t.status.fatal = false ∧
      t.status.errflags = s.status.errflags ∧ t.ports.input = s.ports.input ∧ t.ports.stream = s.ports.stream ∧
      (t.status.playing = false → t.acc = s.acc ∧
        t.ports.rsp = some { err := 0#4, data := 0#64 } ∧ t.phase = s.phase ∧ t.rng = s.rng ∧ t.pink = s.pink ∧
        t.lfsr = s.lfsr ∧ t.pha = s.pha ∧ t.flt.fltp = s.flt.fltp ∧ t.flt.fltdp = s.flt.fltdp ∧
        t.flt.fltw = s.flt.fltw ∧ t.flt.fltphp = s.flt.fltphp ∧
        ∀ (space : Space) (index : Nat), memRead space index t = memRead space index s) ∧
      (if 1048576 ≤ s.acc.length then
        t = State.present { s with status := { s.status with playing := false, stopCause := .sampleCap } }
          { err := 0#4, data := 0#64 }
      else if lt64 r.freq.fmaxperiod fperiod = true ∧ lt32 0#32 (s.p 8) = true then
        t = State.present { r with
          freq := { r.freq with fslide := fslide, fperiod := r.freq.fmaxperiod }
          status := { s.status with playing := false, stopCause := .frequencyLimit } }
          { err := 0#4, data := 0#64 }
      else if e.stage = .stopped then
        t = State.present { rampStep (vibratoStep (slideStep r)) with
          env := e, status := { s.status with playing := false, stopCause := .envelope } }
          { err := 0#4, data := 0#64 }
      else ∃ (m u : State) (sum v : F32),
        m = { rampStep (vibratoStep (slideStep r)) with
          env := t.env, pha := { s.pha with fphase := t.pha.fphase, iphase := t.pha.iphase } } ∧
        (sum, u) = (fun r : F32 × State =>
          let a := advancePhase r.2
          let b := { a with flt := filters (a.p 16) (waveform a) a.flt }
          let out := phaserTapSample b.flt.fltphp b
          (add32 r.1 (mul32 out.1 b.env.vol), out.2))^[8] (0#32, m) ∧
        v = clip (volume (s.p 27) (s.p 26) (compress (s.p 25) (decimate (s.p 24) (div32 sum 0x41000000#32)))) ∧
        t = { u with acc := s.acc ++ [v] }.present { err := 0#4, data := 1#32 ++ v } ∧ t.status = s.status ∧
        (e.stage = .attack ∧ t.env.vol = div32 (nat32 e.time.toNat) (nat32 e.len0.toNat) ∨
          e.stage = .sustain ∧ t.env.vol = add32 0x3F800000#32 (mul32 (mul32 (sub32 0x3F800000#32
            (div32 (nat32 e.time.toNat) (nat32 e.len1.toNat))) 0x40000000#32) (s.p 4)) ∨
          e.stage = .decay ∧ t.env.vol = sub32 0x3F800000#32 (div32 (nat32 e.time.toNat) (nat32 e.len2.toNat))) ∧
        t.env = { e with vol := t.env.vol, time := e.time + 1#32 } ∧
        t.pha.fphase = add32 s.pha.fphase s.pha.fdphase ∧
        t.pha.iphase.toNat = min 1023 (truncI32 t.pha.fphase).toInt.natAbs ∧
        t.pha.ipp.toNat = (s.pha.ipp.toNat + 8) % 1024 ∧
        (∀ index, (∀ j, j < 8 → index ≠ (s.pha.ipp.toNat + j) % 1024) →
          memRead .phaser index t = memRead .phaser index s) ∧
        (s.p 0 ≠ 3#32 → t.nwhite = s.nwhite) ∧ (s.p 0 ≠ 5#32 → t.npink = s.npink ∧ t.pink = s.pink) ∧
        (s.p 0 ≠ 8#32 → t.lfsr = s.lfsr) ∧ (s.p 0 ≠ 3#32 → s.p 0 ≠ 5#32 → t.rng = s.rng))

/-- SYNTH_RUN completes and ends the run: it performs the iterations while `playing = 1`, at most `SAMPLE_CAP + 1` of
them, none where no run is in progress, and answers the number of samples (R172, R173). -/
def Obligations.SynthRunEndsTheRun : Prop :=
  ∀ s : State, s.status.fatal = false → ∃ (n : Nat) (t : State),
    n ≤ 1048577 ∧ t = iteration^[n] s ∧
    exec .synthRun s = .next (t.present { err := 0#4, data := (BitVec.ofNat 32 t.acc.length).setWidth 64 }) ∧
    t.status.playing = false ∧ (∀ m, m < n → (iteration^[m] s).status.playing = true) ∧
    t.params = s.params ∧ t.status.seeded = s.status.seeded ∧ t.status.fatal = false ∧
    t.status.errflags = s.status.errflags ∧ t.ports = s.ports ∧
    s.acc <+: t.acc ∧ t.acc.length ≤ max s.acc.length 1048576

/-- A run driven by SYNTH_STEP, SYNTH_RUN or any mixture gives the same state and the same last response: a step, its
response taken, then SYNTH_RUN is SYNTH_RUN (R172). -/
def Obligations.StepThenRunIsRun : Prop :=
  ∀ s t : State, s.status.fatal = false → exec .synthStep s = .next t →
    exec .synthRun { t with ports := { t.ports with rsp := none } } = exec .synthRun s

/-- A run without repeats that the frequency limit does not end has as many samples as its stages have iterations, cut
at the cap; below the cap it ends by its envelope (R174). -/
def Obligations.RunLengthIsTheEnvelopeLength : Prop :=
  ∀ (s t u : State) (n : Nat), s.status.fatal = false → s.status.seeded = true → exec .synthStart s = .next t →
    t.rep.limit = 0#32 → exec .synthRun t = .next u → u.status.stopCause ≠ .frequencyLimit →
    n = t.env.len0.toNat + t.env.len1.toNat + t.env.len2.toNat →
    u.acc.length = min n 1048576 ∧
    (n < 1048576 → u.status.stopCause = .envelope ∧ u.env.stage = .stopped)

/-! ## The datapath (45_synth_datapath.md) -/

/-- `AdvancePhase()` adds one unit to the phase; where that reaches the period it takes the exact remainder and refreshes
the bank or the LFSR of the wave type, and nothing for the other types. It keeps `0 <= phase < period` for a finite period
of at least 8.0 and a finite phase of at least 0, also where the period has shrunk below the phase, and leaves the period
(R181; 00_scope.md R16). -/
def Obligations.PhaseStaysBelowPeriod : Prop :=
  (∀ (s : State) (phase : F64), phase = add64 s.phase 0x3FF0000000000000#64 → advancePhase s =
    if le64 s.freq.period phase then wrapRefresh { s with phase := fmod64 phase s.freq.period }
    else { s with phase := phase }) ∧
  (∀ s : State, wrapRefresh s = if s.p 0 = 3#32 then refreshWhite s else if s.p 0 = 5#32 then refreshPink s
    else if s.p 0 = 8#32 then { s with lfsr := lfsrStep s.lfsr } else s) ∧
  (∀ (a b : F64) (k n : Nat), binary64.unpack a.toNat = .fin false k → binary64.unpack b.toNat = .fin false n → 0 < n →
    binary64.unpack (fmod64 a b).toNat = .fin false (k % n)) ∧
  ∀ s : State, isFinite64 s.freq.period = true → le64 0x4020000000000000#64 s.freq.period = true →
    isFinite64 s.phase = true → le64 0#64 s.phase = true →
    le64 0#64 (advancePhase s).phase = true ∧ lt64 (advancePhase s).phase s.freq.period = true ∧
    (advancePhase s).freq = s.freq

/-- R183: the LFSR step bit by bit, taken on a wrap of the one-bit waveform; from 0x0001 the next values are 0x4000 and
0x2000, the register never becomes 0, and its period is 32767. -/
def Obligations.LfsrHasFullPeriod : Prop :=
  (∀ (x : BitVec 15) (k : Nat), k < 15 → (lfsrStep x).getLsbD k =
    if k = 14 then (x.getLsbD 0 ^^ x.getLsbD 1) else x.getLsbD (k + 1)) ∧
  (∀ s : State, s.p 0 = 8#32 → wrapRefresh s = { s with lfsr := lfsrStep s.lfsr }) ∧
  lfsrStep 0x0001#15 = 0x4000#15 ∧ lfsrStep 0x4000#15 = 0x2000#15 ∧
  (∀ x : BitVec 15, x ≠ 0#15 → lfsrStep x ≠ 0#15) ∧
  lfsrStep^[32767] 0x0001#15 = 0x0001#15 ∧
  (∀ n, 0 < n → n < 32767 → lfsrStep^[n] 0x0001#15 ≠ 0x0001#15)

/-- The phaser writes at `ipp`, then adds the word `iphase` back in the ring of 1024, which at offset 0 is the word
just written; `ipp` goes on by one modulo 1024 and nothing else changes (R196; 20_memory.md R53). -/
def Obligations.PhaserAddsTheDelayedTap : Prop :=
  ∀ (s t : State) (x y : F32), Memory.wf 1024 s.phaser = true → phaserTapSample x s = (y, t) →
    y = add32 x (if s.pha.iphase = 0#10 then x
      else memRead .phaser ((s.pha.ipp.toNat + 1024 - s.pha.iphase.toNat) % 1024) s) ∧
    t.pha = { s.pha with ipp := s.pha.ipp + 1#10 } ∧ (s.pha.ipp + 1#10).toNat = (s.pha.ipp.toNat + 1) % 1024 ∧
    memRead .phaser s.pha.ipp.toNat t = x ∧
    (∀ index, index ≠ s.pha.ipp.toNat → memRead .phaser index t = memRead .phaser index s) ∧
    t = { s with phaser := t.phaser, pha := t.pha }

/-- R202: the clip. Above 1.0 it gives 1.0 and below -1.0 it gives -1.0, the infinities among them; a NaN and every
value of [-1, 1] pass unchanged. -/
def Obligations.ClipIsHard : Prop :=
  ∀ v : F32,
    (lt32 0x3F800000#32 v = true → clip v = 0x3F800000#32) ∧
    (lt32 v 0xBF800000#32 = true → clip v = 0xBF800000#32) ∧
    (lt32 0x3F800000#32 v = false → lt32 v 0xBF800000#32 = false → clip v = v) ∧
    (isNaN32 v = true → clip v = v) ∧
    clip 0x7F800000#32 = 0x3F800000#32 ∧ clip 0xFF800000#32 = 0xBF800000#32

/-- Every sample a run appends is in [-1.0, 1.0] or is a NaN (R204). -/
def Obligations.AppendedSamplesAreInRange : Prop :=
  ∀ (i : Instr) (s t : State), i = .synthStep ∨ i = .synthRun → exec i s = .next t →
    ∀ v ∈ t.acc.drop s.acc.length, sampleInRange v = true

/-! ## The machine as a whole -/

/-- The reset state satisfies the invariant (10_state.md R34). -/
def Obligations.ResetSatisfiesTheInvariant : Prop := State.reset.Inv

/-- Every step keeps the invariant: legal parameters, a run implies a seed, no stage past Decay in a run, `fatal` with
its flag, canonical memories, bounded pink state and accumulator (10_state.md R21, R25, R27, R28, R32; 41_rng.md R113;
90_conflicts.md C4). -/
def Obligations.StepKeepsTheInvariant : Prop :=
  ∀ s t : State, s.Inv → step s = .next t → t.Inv

/-- The samples of a run are a function of the parameters, `rng_state` and the pink state at its SYNTH_START, and of
nothing else (10_state.md R23, which derives it from R151 and R97): two states that agree in these, however they differ
elsewhere, give the same samples after any number of iterations, the same end and the same response. -/
def Obligations.RunDependsOnParametersAndNoiseOnly : Prop :=
  ∀ s s' t t' u u' : State, s.Inv → s'.Inv →
    s.params = s'.params → s.rng = s'.rng → s.pink = s'.pink →
    s.status.fatal = false → s'.status.fatal = false → s.status.seeded = true → s'.status.seeded = true →
    exec .synthStart s = .next t → exec .synthStart s' = .next t' →
    exec .synthRun t = .next u → exec .synthRun t' = .next u' →
    (∀ n, (runLoop n t).acc = (runLoop n t').acc) ∧ u.acc = u'.acc ∧
    u.status.stopCause = u'.status.stopCause ∧ u.ports.rsp = u'.ports.rsp
end

