-- ==== Sys2Proof/Laws/Decode.lean ====
section
/-!
SUPPORT. The fields of a command word that is put together from fields, and a word put together again from its fields
(30_encoding.md R72).
-/

namespace Sys2Proof.Laws

theorem bit_of_commandWord (op idx : BitVec 8) (data : Word64) (i : Nat) (hi : i < 80) :
    (commandWord op idx data).getLsbD i =
      if i < 64 then data.getLsbD i else if i < 72 then idx.getLsbD (i - 64) else op.getLsbD (i - 72) := by
  unfold commandWord
  rw [BitVec.getLsbD_append, BitVec.getLsbD_append]
  by_cases h1 : i < 64
  · simp [h1]
  · by_cases h2 : i < 72
    · simp [h1, h2, show i - 64 < 8 by omega]
    · simp [h1, h2, show ¬ i - 64 < 8 by omega, show i - 64 - 8 = i - 72 by omega]

@[simp] theorem opField_commandWord (op idx : BitVec 8) (data : Word64) :
    opField (commandWord op idx data) = op := by
  apply BitVec.eq_of_getLsbD_eq
  intro i hi
  rw [opField, BitVec.getLsbD_extractLsb']
  simp only [hi, decide_true, Bool.true_and]
  rw [bit_of_commandWord _ _ _ _ (by omega)]
  simp [show ¬ 72 + i < 64 by omega, show ¬ 72 + i < 72 by omega]

@[simp] theorem idxField_commandWord (op idx : BitVec 8) (data : Word64) :
    idxField (commandWord op idx data) = idx := by
  apply BitVec.eq_of_getLsbD_eq
  intro i hi
  rw [idxField, BitVec.getLsbD_extractLsb']
  simp only [hi, decide_true, Bool.true_and]
  rw [bit_of_commandWord _ _ _ _ (by omega)]
  simp [show ¬ 64 + i < 64 by omega, show 64 + i < 72 by omega]

@[simp] theorem dataField_commandWord (op idx : BitVec 8) (data : Word64) :
    dataField (commandWord op idx data) = data := by
  apply BitVec.eq_of_getLsbD_eq
  intro i hi
  rw [dataField, BitVec.getLsbD_extractLsb']
  simp only [hi, decide_true, Bool.true_and]
  rw [bit_of_commandWord _ _ _ _ (by omega)]
  simp [hi]

@[simp] theorem dataHigh_commandWord (op idx : BitVec 8) (data : Word64) :
    dataHigh (commandWord op idx data) = data.extractLsb' 32 32 := by
  apply BitVec.eq_of_getLsbD_eq
  intro i hi
  rw [dataHigh, BitVec.getLsbD_extractLsb', BitVec.getLsbD_extractLsb']
  simp only [hi, decide_true, Bool.true_and]
  rw [bit_of_commandWord _ _ _ _ (by omega)]
  simp [show 32 + i < 64 by omega]

@[simp] theorem dataLow_commandWord (op idx : BitVec 8) (data : Word64) :
    dataLow (commandWord op idx data) = data.extractLsb' 0 32 := by
  apply BitVec.eq_of_getLsbD_eq
  intro i hi
  rw [dataLow, BitVec.getLsbD_extractLsb', BitVec.getLsbD_extractLsb']
  simp only [hi, decide_true, Bool.true_and]
  rw [bit_of_commandWord _ _ _ _ (by omega)]
  simp [show i < 64 by omega]

@[simp] theorem high_of_append (a b : Word32) : BitVec.extractLsb' 32 32 (a ++ b : Word64) = a := by
  apply BitVec.eq_of_getLsbD_eq
  intro i hi
  rw [BitVec.getLsbD_extractLsb', BitVec.getLsbD_append]
  simp [hi, show ¬ 32 + i < 32 by omega]

@[simp] theorem low_of_append (a b : Word32) : BitVec.extractLsb' 0 32 (a ++ b : Word64) = b := by
  apply BitVec.eq_of_getLsbD_eq
  intro i hi
  rw [BitVec.getLsbD_extractLsb', BitVec.getLsbD_append]
  simp [hi]

theorem commandWord_of_fields (w : CommandWord) : commandWord (opField w) (idxField w) (dataField w) = w := by
  apply BitVec.eq_of_getLsbD_eq
  intro i hi
  rw [bit_of_commandWord _ _ _ _ hi, opField, idxField, dataField, BitVec.getLsbD_extractLsb',
    BitVec.getLsbD_extractLsb', BitVec.getLsbD_extractLsb']
  by_cases h1 : i < 64
  · simp [h1]
  · by_cases h2 : i < 72
    · simp [h1, h2, show i - 64 < 8 by omega, show 64 + (i - 64) = i by omega]
    · simp [h1, h2, show i - 72 < 8 by omega, show 72 + (i - 72) = i by omega]

theorem dataField_of_halves (w : CommandWord) : dataHigh w ++ dataLow w = dataField w := by
  apply BitVec.eq_of_getLsbD_eq
  intro i hi
  rw [BitVec.getLsbD_append, dataHigh, dataLow, dataField, BitVec.getLsbD_extractLsb', BitVec.getLsbD_extractLsb',
    BitVec.getLsbD_extractLsb']
  by_cases h : i < 32
  · simp [h, show i < 64 by omega]
  · simp [h, show i - 32 < 32 by omega, show 32 + (i - 32) = i by omega, show i < 64 by omega]

end Sys2Proof.Laws
end

