-- ==== Sys2Proof/Laws/State.lean ====
section
/-!
SUPPORT. One lemma per field per named update of the state, each true by unfolding, so that no later proof unfolds a
record update.
-/

namespace Sys2Proof.Laws

open Sys2Proof.Machine

/-! ## `present` -/

@[simp] theorem present_params (r : Response) (s : State) :
    (s.present r).params = s.params := rfl
@[simp] theorem present_status (r : Response) (s : State) :
    (s.present r).status = s.status := rfl
@[simp] theorem present_phase (r : Response) (s : State) :
    (s.present r).phase = s.phase := rfl
@[simp] theorem present_freq (r : Response) (s : State) :
    (s.present r).freq = s.freq := rfl
@[simp] theorem present_rep (r : Response) (s : State) :
    (s.present r).rep = s.rep := rfl
@[simp] theorem present_env (r : Response) (s : State) :
    (s.present r).env = s.env := rfl
@[simp] theorem present_flt (r : Response) (s : State) :
    (s.present r).flt = s.flt := rfl
@[simp] theorem present_vib (r : Response) (s : State) :
    (s.present r).vib = s.vib := rfl
@[simp] theorem present_pha (r : Response) (s : State) :
    (s.present r).pha = s.pha := rfl
@[simp] theorem present_lfsr (r : Response) (s : State) :
    (s.present r).lfsr = s.lfsr := rfl
@[simp] theorem present_rng (r : Response) (s : State) :
    (s.present r).rng = s.rng := rfl
@[simp] theorem present_pink (r : Response) (s : State) :
    (s.present r).pink = s.pink := rfl
@[simp] theorem present_phaser (r : Response) (s : State) :
    (s.present r).phaser = s.phaser := rfl
@[simp] theorem present_nwhite (r : Response) (s : State) :
    (s.present r).nwhite = s.nwhite := rfl
@[simp] theorem present_npink (r : Response) (s : State) :
    (s.present r).npink = s.npink := rfl
@[simp] theorem present_acc (r : Response) (s : State) :
    (s.present r).acc = s.acc := rfl
@[simp] theorem present_ports (r : Response) (s : State) :
    (s.present r).ports = { s.ports with rsp := some r } := rfl

/-! ## `errorState` -/

@[simp] theorem errorState_params (e : ErrorCode) (s : State) :
    (errorState e s).params = s.params := rfl
@[simp] theorem errorState_status (e : ErrorCode) (s : State) :
    (errorState e s).status = recordError e s.status := rfl
@[simp] theorem errorState_phase (e : ErrorCode) (s : State) :
    (errorState e s).phase = s.phase := rfl
@[simp] theorem errorState_freq (e : ErrorCode) (s : State) :
    (errorState e s).freq = s.freq := rfl
@[simp] theorem errorState_rep (e : ErrorCode) (s : State) :
    (errorState e s).rep = s.rep := rfl
@[simp] theorem errorState_env (e : ErrorCode) (s : State) :
    (errorState e s).env = s.env := rfl
@[simp] theorem errorState_flt (e : ErrorCode) (s : State) :
    (errorState e s).flt = s.flt := rfl
@[simp] theorem errorState_vib (e : ErrorCode) (s : State) :
    (errorState e s).vib = s.vib := rfl
@[simp] theorem errorState_pha (e : ErrorCode) (s : State) :
    (errorState e s).pha = s.pha := rfl
@[simp] theorem errorState_lfsr (e : ErrorCode) (s : State) :
    (errorState e s).lfsr = s.lfsr := rfl
@[simp] theorem errorState_rng (e : ErrorCode) (s : State) :
    (errorState e s).rng = s.rng := rfl
@[simp] theorem errorState_pink (e : ErrorCode) (s : State) :
    (errorState e s).pink = s.pink := rfl
@[simp] theorem errorState_phaser (e : ErrorCode) (s : State) :
    (errorState e s).phaser = s.phaser := rfl
@[simp] theorem errorState_nwhite (e : ErrorCode) (s : State) :
    (errorState e s).nwhite = s.nwhite := rfl
@[simp] theorem errorState_npink (e : ErrorCode) (s : State) :
    (errorState e s).npink = s.npink := rfl
@[simp] theorem errorState_acc (e : ErrorCode) (s : State) :
    (errorState e s).acc = s.acc := rfl
@[simp] theorem errorState_ports (e : ErrorCode) (s : State) :
    (errorState e s).ports = { s.ports with rsp := some { err := e.code, data := 0#64 } } := rfl

/-! ## `endRun` -/

@[simp] theorem endRun_params (c : StopCause) (s : State) :
    (endRun c s).params = s.params := rfl
@[simp] theorem endRun_status (c : StopCause) (s : State) :
    (endRun c s).status = { s.status with playing := false, stopCause := c } := rfl
@[simp] theorem endRun_phase (c : StopCause) (s : State) :
    (endRun c s).phase = s.phase := rfl
@[simp] theorem endRun_freq (c : StopCause) (s : State) :
    (endRun c s).freq = s.freq := rfl
@[simp] theorem endRun_rep (c : StopCause) (s : State) :
    (endRun c s).rep = s.rep := rfl
@[simp] theorem endRun_env (c : StopCause) (s : State) :
    (endRun c s).env = s.env := rfl
@[simp] theorem endRun_flt (c : StopCause) (s : State) :
    (endRun c s).flt = s.flt := rfl
@[simp] theorem endRun_vib (c : StopCause) (s : State) :
    (endRun c s).vib = s.vib := rfl
@[simp] theorem endRun_pha (c : StopCause) (s : State) :
    (endRun c s).pha = s.pha := rfl
@[simp] theorem endRun_lfsr (c : StopCause) (s : State) :
    (endRun c s).lfsr = s.lfsr := rfl
@[simp] theorem endRun_rng (c : StopCause) (s : State) :
    (endRun c s).rng = s.rng := rfl
@[simp] theorem endRun_pink (c : StopCause) (s : State) :
    (endRun c s).pink = s.pink := rfl
@[simp] theorem endRun_phaser (c : StopCause) (s : State) :
    (endRun c s).phaser = s.phaser := rfl
@[simp] theorem endRun_nwhite (c : StopCause) (s : State) :
    (endRun c s).nwhite = s.nwhite := rfl
@[simp] theorem endRun_npink (c : StopCause) (s : State) :
    (endRun c s).npink = s.npink := rfl
@[simp] theorem endRun_acc (c : StopCause) (s : State) :
    (endRun c s).acc = s.acc := rfl
@[simp] theorem endRun_ports (c : StopCause) (s : State) :
    (endRun c s).ports = s.ports := rfl

/-! ## `accAppend` -/

@[simp] theorem accAppend_params (v : F32) (s : State) :
    (accAppend v s).params = s.params := rfl
@[simp] theorem accAppend_status (v : F32) (s : State) :
    (accAppend v s).status = s.status := rfl
@[simp] theorem accAppend_phase (v : F32) (s : State) :
    (accAppend v s).phase = s.phase := rfl
@[simp] theorem accAppend_freq (v : F32) (s : State) :
    (accAppend v s).freq = s.freq := rfl
@[simp] theorem accAppend_rep (v : F32) (s : State) :
    (accAppend v s).rep = s.rep := rfl
@[simp] theorem accAppend_env (v : F32) (s : State) :
    (accAppend v s).env = s.env := rfl
@[simp] theorem accAppend_flt (v : F32) (s : State) :
    (accAppend v s).flt = s.flt := rfl
@[simp] theorem accAppend_vib (v : F32) (s : State) :
    (accAppend v s).vib = s.vib := rfl
@[simp] theorem accAppend_pha (v : F32) (s : State) :
    (accAppend v s).pha = s.pha := rfl
@[simp] theorem accAppend_lfsr (v : F32) (s : State) :
    (accAppend v s).lfsr = s.lfsr := rfl
@[simp] theorem accAppend_rng (v : F32) (s : State) :
    (accAppend v s).rng = s.rng := rfl
@[simp] theorem accAppend_pink (v : F32) (s : State) :
    (accAppend v s).pink = s.pink := rfl
@[simp] theorem accAppend_phaser (v : F32) (s : State) :
    (accAppend v s).phaser = s.phaser := rfl
@[simp] theorem accAppend_nwhite (v : F32) (s : State) :
    (accAppend v s).nwhite = s.nwhite := rfl
@[simp] theorem accAppend_npink (v : F32) (s : State) :
    (accAppend v s).npink = s.npink := rfl
@[simp] theorem accAppend_acc (v : F32) (s : State) :
    (accAppend v s).acc = s.acc ++ [v] := rfl
@[simp] theorem accAppend_ports (v : F32) (s : State) :
    (accAppend v s).ports = s.ports := rfl

/-! ## `writeParameter` -/

@[simp] theorem writeParameter_params (n : Fin 28) (v : Word32) (s : State) :
    (writeParameter n v s).params = s.params.set n v := rfl
@[simp] theorem writeParameter_status (n : Fin 28) (v : Word32) (s : State) :
    (writeParameter n v s).status = s.status := rfl
@[simp] theorem writeParameter_phase (n : Fin 28) (v : Word32) (s : State) :
    (writeParameter n v s).phase = s.phase := rfl
@[simp] theorem writeParameter_freq (n : Fin 28) (v : Word32) (s : State) :
    (writeParameter n v s).freq = s.freq := rfl
@[simp] theorem writeParameter_rep (n : Fin 28) (v : Word32) (s : State) :
    (writeParameter n v s).rep = s.rep := rfl
@[simp] theorem writeParameter_env (n : Fin 28) (v : Word32) (s : State) :
    (writeParameter n v s).env = s.env := rfl
@[simp] theorem writeParameter_flt (n : Fin 28) (v : Word32) (s : State) :
    (writeParameter n v s).flt = s.flt := rfl
@[simp] theorem writeParameter_vib (n : Fin 28) (v : Word32) (s : State) :
    (writeParameter n v s).vib = s.vib := rfl
@[simp] theorem writeParameter_pha (n : Fin 28) (v : Word32) (s : State) :
    (writeParameter n v s).pha = s.pha := rfl
@[simp] theorem writeParameter_lfsr (n : Fin 28) (v : Word32) (s : State) :
    (writeParameter n v s).lfsr = s.lfsr := rfl
@[simp] theorem writeParameter_rng (n : Fin 28) (v : Word32) (s : State) :
    (writeParameter n v s).rng = s.rng := rfl
@[simp] theorem writeParameter_pink (n : Fin 28) (v : Word32) (s : State) :
    (writeParameter n v s).pink = s.pink := rfl
@[simp] theorem writeParameter_phaser (n : Fin 28) (v : Word32) (s : State) :
    (writeParameter n v s).phaser = s.phaser := rfl
@[simp] theorem writeParameter_nwhite (n : Fin 28) (v : Word32) (s : State) :
    (writeParameter n v s).nwhite = s.nwhite := rfl
@[simp] theorem writeParameter_npink (n : Fin 28) (v : Word32) (s : State) :
    (writeParameter n v s).npink = s.npink := rfl
@[simp] theorem writeParameter_acc (n : Fin 28) (v : Word32) (s : State) :
    (writeParameter n v s).acc = s.acc := rfl
@[simp] theorem writeParameter_ports (n : Fin 28) (v : Word32) (s : State) :
    (writeParameter n v s).ports = s.ports := rfl

/-! ## `softReset` -/

@[simp] theorem softReset_params  (s : State) :
    (softReset s).params = s.params := by simp only [softReset]
@[simp] theorem softReset_status  (s : State) :
    (softReset s).status = s.status := by simp only [softReset]
@[simp] theorem softReset_phase  (s : State) :
    (softReset s).phase = s.phase := by simp only [softReset]
@[simp] theorem softReset_freq  (s : State) :
    (softReset s).freq = resetFrequency s.params := by simp only [softReset]
@[simp] theorem softReset_rep  (s : State) :
    (softReset s).rep = s.rep := by simp only [softReset]
@[simp] theorem softReset_env  (s : State) :
    (softReset s).env = resetEnvelope s.params := by simp only [softReset]
@[simp] theorem softReset_flt  (s : State) :
    (softReset s).flt = s.flt := by simp only [softReset]
@[simp] theorem softReset_vib  (s : State) :
    (softReset s).vib = s.vib := by simp only [softReset]
@[simp] theorem softReset_pha  (s : State) :
    (softReset s).pha = s.pha := by simp only [softReset]
@[simp] theorem softReset_lfsr  (s : State) :
    (softReset s).lfsr = s.lfsr := by simp only [softReset]
@[simp] theorem softReset_rng  (s : State) :
    (softReset s).rng = s.rng := by simp only [softReset]
@[simp] theorem softReset_pink  (s : State) :
    (softReset s).pink = s.pink := by simp only [softReset]
@[simp] theorem softReset_phaser  (s : State) :
    (softReset s).phaser = s.phaser := by simp only [softReset]
@[simp] theorem softReset_nwhite  (s : State) :
    (softReset s).nwhite = s.nwhite := by simp only [softReset]
@[simp] theorem softReset_npink  (s : State) :
    (softReset s).npink = s.npink := by simp only [softReset]
@[simp] theorem softReset_acc  (s : State) :
    (softReset s).acc = s.acc := by simp only [softReset]
@[simp] theorem softReset_ports  (s : State) :
    (softReset s).ports = s.ports := by simp only [softReset]

/-! ## `arpeggioStep` -/

@[simp] theorem arpeggioStep_params  (s : State) :
    (arpeggioStep s).params = s.params := by simp only [arpeggioStep]
@[simp] theorem arpeggioStep_status  (s : State) :
    (arpeggioStep s).status = s.status := by simp only [arpeggioStep]
@[simp] theorem arpeggioStep_phase  (s : State) :
    (arpeggioStep s).phase = s.phase := by simp only [arpeggioStep]
@[simp] theorem arpeggioStep_freq  (s : State) :
    (arpeggioStep s).freq = arpeggio s.freq := by simp only [arpeggioStep]
@[simp] theorem arpeggioStep_rep  (s : State) :
    (arpeggioStep s).rep = s.rep := by simp only [arpeggioStep]
@[simp] theorem arpeggioStep_env  (s : State) :
    (arpeggioStep s).env = s.env := by simp only [arpeggioStep]
@[simp] theorem arpeggioStep_flt  (s : State) :
    (arpeggioStep s).flt = s.flt := by simp only [arpeggioStep]
@[simp] theorem arpeggioStep_vib  (s : State) :
    (arpeggioStep s).vib = s.vib := by simp only [arpeggioStep]
@[simp] theorem arpeggioStep_pha  (s : State) :
    (arpeggioStep s).pha = s.pha := by simp only [arpeggioStep]
@[simp] theorem arpeggioStep_lfsr  (s : State) :
    (arpeggioStep s).lfsr = s.lfsr := by simp only [arpeggioStep]
@[simp] theorem arpeggioStep_rng  (s : State) :
    (arpeggioStep s).rng = s.rng := by simp only [arpeggioStep]
@[simp] theorem arpeggioStep_pink  (s : State) :
    (arpeggioStep s).pink = s.pink := by simp only [arpeggioStep]
@[simp] theorem arpeggioStep_phaser  (s : State) :
    (arpeggioStep s).phaser = s.phaser := by simp only [arpeggioStep]
@[simp] theorem arpeggioStep_nwhite  (s : State) :
    (arpeggioStep s).nwhite = s.nwhite := by simp only [arpeggioStep]
@[simp] theorem arpeggioStep_npink  (s : State) :
    (arpeggioStep s).npink = s.npink := by simp only [arpeggioStep]
@[simp] theorem arpeggioStep_acc  (s : State) :
    (arpeggioStep s).acc = s.acc := by simp only [arpeggioStep]
@[simp] theorem arpeggioStep_ports  (s : State) :
    (arpeggioStep s).ports = s.ports := by simp only [arpeggioStep]

/-! ## `rampStep` -/

@[simp] theorem rampStep_params  (s : State) :
    (rampStep s).params = s.params := by simp only [rampStep]
@[simp] theorem rampStep_status  (s : State) :
    (rampStep s).status = s.status := by simp only [rampStep]
@[simp] theorem rampStep_phase  (s : State) :
    (rampStep s).phase = s.phase := by simp only [rampStep]
@[simp] theorem rampStep_freq  (s : State) :
    (rampStep s).freq = { s.freq with squareDuty := clamp32 0#32 half32 (add32 s.freq.squareDuty s.freq.squareSlide) } := by simp only [rampStep]
@[simp] theorem rampStep_rep  (s : State) :
    (rampStep s).rep = s.rep := by simp only [rampStep]
@[simp] theorem rampStep_env  (s : State) :
    (rampStep s).env = s.env := by simp only [rampStep]
@[simp] theorem rampStep_flt  (s : State) :
    (rampStep s).flt = { s.flt with flthp := clamp32 highPassFloor32 tenth32 (mul32 s.flt.flthp s.flt.flthpD) } := by simp only [rampStep]
@[simp] theorem rampStep_vib  (s : State) :
    (rampStep s).vib = s.vib := by simp only [rampStep]
@[simp] theorem rampStep_pha  (s : State) :
    (rampStep s).pha = s.pha := by simp only [rampStep]
@[simp] theorem rampStep_lfsr  (s : State) :
    (rampStep s).lfsr = s.lfsr := by simp only [rampStep]
@[simp] theorem rampStep_rng  (s : State) :
    (rampStep s).rng = s.rng := by simp only [rampStep]
@[simp] theorem rampStep_pink  (s : State) :
    (rampStep s).pink = s.pink := by simp only [rampStep]
@[simp] theorem rampStep_phaser  (s : State) :
    (rampStep s).phaser = s.phaser := by simp only [rampStep]
@[simp] theorem rampStep_nwhite  (s : State) :
    (rampStep s).nwhite = s.nwhite := by simp only [rampStep]
@[simp] theorem rampStep_npink  (s : State) :
    (rampStep s).npink = s.npink := by simp only [rampStep]
@[simp] theorem rampStep_acc  (s : State) :
    (rampStep s).acc = s.acc := by simp only [rampStep]
@[simp] theorem rampStep_ports  (s : State) :
    (rampStep s).ports = s.ports := by simp only [rampStep]

/-! ## `volumeStep` -/

@[simp] theorem volumeStep_params  (s : State) :
    (volumeStep s).params = s.params := by simp only [volumeStep]
@[simp] theorem volumeStep_status  (s : State) :
    (volumeStep s).status = s.status := by simp only [volumeStep]
@[simp] theorem volumeStep_phase  (s : State) :
    (volumeStep s).phase = s.phase := by simp only [volumeStep]
@[simp] theorem volumeStep_freq  (s : State) :
    (volumeStep s).freq = s.freq := by simp only [volumeStep]
@[simp] theorem volumeStep_rep  (s : State) :
    (volumeStep s).rep = s.rep := by simp only [volumeStep]
@[simp] theorem volumeStep_env  (s : State) :
    (volumeStep s).env = envelopeVolume (s.p 4) s.env := by simp only [volumeStep]
@[simp] theorem volumeStep_flt  (s : State) :
    (volumeStep s).flt = s.flt := by simp only [volumeStep]
@[simp] theorem volumeStep_vib  (s : State) :
    (volumeStep s).vib = s.vib := by simp only [volumeStep]
@[simp] theorem volumeStep_pha  (s : State) :
    (volumeStep s).pha = s.pha := by simp only [volumeStep]
@[simp] theorem volumeStep_lfsr  (s : State) :
    (volumeStep s).lfsr = s.lfsr := by simp only [volumeStep]
@[simp] theorem volumeStep_rng  (s : State) :
    (volumeStep s).rng = s.rng := by simp only [volumeStep]
@[simp] theorem volumeStep_pink  (s : State) :
    (volumeStep s).pink = s.pink := by simp only [volumeStep]
@[simp] theorem volumeStep_phaser  (s : State) :
    (volumeStep s).phaser = s.phaser := by simp only [volumeStep]
@[simp] theorem volumeStep_nwhite  (s : State) :
    (volumeStep s).nwhite = s.nwhite := by simp only [volumeStep]
@[simp] theorem volumeStep_npink  (s : State) :
    (volumeStep s).npink = s.npink := by simp only [volumeStep]
@[simp] theorem volumeStep_acc  (s : State) :
    (volumeStep s).acc = s.acc := by simp only [volumeStep]
@[simp] theorem volumeStep_ports  (s : State) :
    (volumeStep s).ports = s.ports := by simp only [volumeStep]

/-! ## `phaserOffsetStep` -/

@[simp] theorem phaserOffsetStep_params  (s : State) :
    (phaserOffsetStep s).params = s.params := by simp only [phaserOffsetStep]
@[simp] theorem phaserOffsetStep_status  (s : State) :
    (phaserOffsetStep s).status = s.status := by simp only [phaserOffsetStep]
@[simp] theorem phaserOffsetStep_phase  (s : State) :
    (phaserOffsetStep s).phase = s.phase := by simp only [phaserOffsetStep]
@[simp] theorem phaserOffsetStep_freq  (s : State) :
    (phaserOffsetStep s).freq = s.freq := by simp only [phaserOffsetStep]
@[simp] theorem phaserOffsetStep_rep  (s : State) :
    (phaserOffsetStep s).rep = s.rep := by simp only [phaserOffsetStep]
@[simp] theorem phaserOffsetStep_env  (s : State) :
    (phaserOffsetStep s).env = s.env := by simp only [phaserOffsetStep]
@[simp] theorem phaserOffsetStep_flt  (s : State) :
    (phaserOffsetStep s).flt = s.flt := by simp only [phaserOffsetStep]
@[simp] theorem phaserOffsetStep_vib  (s : State) :
    (phaserOffsetStep s).vib = s.vib := by simp only [phaserOffsetStep]
@[simp] theorem phaserOffsetStep_pha  (s : State) :
    (phaserOffsetStep s).pha = { s.pha with fphase := add32 s.pha.fphase s.pha.fdphase, iphase := phaserTap (add32 s.pha.fphase s.pha.fdphase) } := by simp only [phaserOffsetStep]
@[simp] theorem phaserOffsetStep_lfsr  (s : State) :
    (phaserOffsetStep s).lfsr = s.lfsr := by simp only [phaserOffsetStep]
@[simp] theorem phaserOffsetStep_rng  (s : State) :
    (phaserOffsetStep s).rng = s.rng := by simp only [phaserOffsetStep]
@[simp] theorem phaserOffsetStep_pink  (s : State) :
    (phaserOffsetStep s).pink = s.pink := by simp only [phaserOffsetStep]
@[simp] theorem phaserOffsetStep_phaser  (s : State) :
    (phaserOffsetStep s).phaser = s.phaser := by simp only [phaserOffsetStep]
@[simp] theorem phaserOffsetStep_nwhite  (s : State) :
    (phaserOffsetStep s).nwhite = s.nwhite := by simp only [phaserOffsetStep]
@[simp] theorem phaserOffsetStep_npink  (s : State) :
    (phaserOffsetStep s).npink = s.npink := by simp only [phaserOffsetStep]
@[simp] theorem phaserOffsetStep_acc  (s : State) :
    (phaserOffsetStep s).acc = s.acc := by simp only [phaserOffsetStep]
@[simp] theorem phaserOffsetStep_ports  (s : State) :
    (phaserOffsetStep s).ports = s.ports := by simp only [phaserOffsetStep]

/-! ## `hardReset` -/

@[simp] theorem hardReset_params (s : State) : (hardReset s).params = State.reset.params := rfl
@[simp] theorem hardReset_status (s : State) : (hardReset s).status = State.reset.status := rfl
@[simp] theorem hardReset_phase (s : State) : (hardReset s).phase = State.reset.phase := rfl
@[simp] theorem hardReset_freq (s : State) : (hardReset s).freq = State.reset.freq := rfl
@[simp] theorem hardReset_rep (s : State) : (hardReset s).rep = State.reset.rep := rfl
@[simp] theorem hardReset_env (s : State) : (hardReset s).env = State.reset.env := rfl
@[simp] theorem hardReset_flt (s : State) : (hardReset s).flt = State.reset.flt := rfl
@[simp] theorem hardReset_vib (s : State) : (hardReset s).vib = State.reset.vib := rfl
@[simp] theorem hardReset_pha (s : State) : (hardReset s).pha = State.reset.pha := rfl
@[simp] theorem hardReset_lfsr (s : State) : (hardReset s).lfsr = State.reset.lfsr := rfl
@[simp] theorem hardReset_rng (s : State) : (hardReset s).rng = State.reset.rng := rfl
@[simp] theorem hardReset_pink (s : State) : (hardReset s).pink = State.reset.pink := rfl
@[simp] theorem hardReset_phaser (s : State) : (hardReset s).phaser = State.reset.phaser := rfl
@[simp] theorem hardReset_nwhite (s : State) : (hardReset s).nwhite = State.reset.nwhite := rfl
@[simp] theorem hardReset_npink (s : State) : (hardReset s).npink = State.reset.npink := rfl
@[simp] theorem hardReset_acc (s : State) : (hardReset s).acc = State.reset.acc := rfl
@[simp] theorem hardReset_ports (s : State) :
    (hardReset s).ports = { input := s.ports.input, stream := [], rsp := none } := rfl

/-! ## `memWrite` -/

@[simp] theorem memWrite_params (space : Space) (i : Nat) (v : Word32) (s : State) :
    (memWrite space i v s).params = s.params := by cases space <;> rfl
@[simp] theorem memWrite_status (space : Space) (i : Nat) (v : Word32) (s : State) :
    (memWrite space i v s).status = s.status := by cases space <;> rfl
@[simp] theorem memWrite_phase (space : Space) (i : Nat) (v : Word32) (s : State) :
    (memWrite space i v s).phase = s.phase := by cases space <;> rfl
@[simp] theorem memWrite_freq (space : Space) (i : Nat) (v : Word32) (s : State) :
    (memWrite space i v s).freq = s.freq := by cases space <;> rfl
@[simp] theorem memWrite_rep (space : Space) (i : Nat) (v : Word32) (s : State) :
    (memWrite space i v s).rep = s.rep := by cases space <;> rfl
@[simp] theorem memWrite_env (space : Space) (i : Nat) (v : Word32) (s : State) :
    (memWrite space i v s).env = s.env := by cases space <;> rfl
@[simp] theorem memWrite_flt (space : Space) (i : Nat) (v : Word32) (s : State) :
    (memWrite space i v s).flt = s.flt := by cases space <;> rfl
@[simp] theorem memWrite_vib (space : Space) (i : Nat) (v : Word32) (s : State) :
    (memWrite space i v s).vib = s.vib := by cases space <;> rfl
@[simp] theorem memWrite_pha (space : Space) (i : Nat) (v : Word32) (s : State) :
    (memWrite space i v s).pha = s.pha := by cases space <;> rfl
@[simp] theorem memWrite_lfsr (space : Space) (i : Nat) (v : Word32) (s : State) :
    (memWrite space i v s).lfsr = s.lfsr := by cases space <;> rfl
@[simp] theorem memWrite_rng (space : Space) (i : Nat) (v : Word32) (s : State) :
    (memWrite space i v s).rng = s.rng := by cases space <;> rfl
@[simp] theorem memWrite_pink (space : Space) (i : Nat) (v : Word32) (s : State) :
    (memWrite space i v s).pink = s.pink := by cases space <;> rfl
@[simp] theorem memWrite_phaser_phaser (i : Nat) (v : Word32) (s : State) :
    (memWrite .phaser i v s).phaser = Memory.write s.phaser i v := rfl
@[simp] theorem memWrite_nwhite_phaser (i : Nat) (v : Word32) (s : State) :
    (memWrite .nwhite i v s).phaser = s.phaser := rfl
@[simp] theorem memWrite_npink_phaser (i : Nat) (v : Word32) (s : State) :
    (memWrite .npink i v s).phaser = s.phaser := rfl
@[simp] theorem memWrite_phaser_nwhite (i : Nat) (v : Word32) (s : State) :
    (memWrite .phaser i v s).nwhite = s.nwhite := rfl
@[simp] theorem memWrite_nwhite_nwhite (i : Nat) (v : Word32) (s : State) :
    (memWrite .nwhite i v s).nwhite = Memory.write s.nwhite i v := rfl
@[simp] theorem memWrite_npink_nwhite (i : Nat) (v : Word32) (s : State) :
    (memWrite .npink i v s).nwhite = s.nwhite := rfl
@[simp] theorem memWrite_phaser_npink (i : Nat) (v : Word32) (s : State) :
    (memWrite .phaser i v s).npink = s.npink := rfl
@[simp] theorem memWrite_nwhite_npink (i : Nat) (v : Word32) (s : State) :
    (memWrite .nwhite i v s).npink = s.npink := rfl
@[simp] theorem memWrite_npink_npink (i : Nat) (v : Word32) (s : State) :
    (memWrite .npink i v s).npink = Memory.write s.npink i v := rfl
@[simp] theorem memWrite_acc (space : Space) (i : Nat) (v : Word32) (s : State) :
    (memWrite space i v s).acc = s.acc := by cases space <;> rfl
@[simp] theorem memWrite_ports (space : Space) (i : Nat) (v : Word32) (s : State) :
    (memWrite space i v s).ports = s.ports := by cases space <;> rfl

/-! ## `next64` -/

@[simp] theorem next64_params (s : State) : (next64 s).2.params = s.params := rfl
@[simp] theorem next64_status (s : State) : (next64 s).2.status = s.status := rfl
@[simp] theorem next64_phase (s : State) : (next64 s).2.phase = s.phase := rfl
@[simp] theorem next64_freq (s : State) : (next64 s).2.freq = s.freq := rfl
@[simp] theorem next64_rep (s : State) : (next64 s).2.rep = s.rep := rfl
@[simp] theorem next64_env (s : State) : (next64 s).2.env = s.env := rfl
@[simp] theorem next64_flt (s : State) : (next64 s).2.flt = s.flt := rfl
@[simp] theorem next64_vib (s : State) : (next64 s).2.vib = s.vib := rfl
@[simp] theorem next64_pha (s : State) : (next64 s).2.pha = s.pha := rfl
@[simp] theorem next64_lfsr (s : State) : (next64 s).2.lfsr = s.lfsr := rfl
@[simp] theorem next64_rng (s : State) : (next64 s).2.rng = xorshift s.rng := rfl
@[simp] theorem next64_pink (s : State) : (next64 s).2.pink = s.pink := rfl
@[simp] theorem next64_phaser (s : State) : (next64 s).2.phaser = s.phaser := rfl
@[simp] theorem next64_nwhite (s : State) : (next64 s).2.nwhite = s.nwhite := rfl
@[simp] theorem next64_npink (s : State) : (next64 s).2.npink = s.npink := rfl
@[simp] theorem next64_acc (s : State) : (next64 s).2.acc = s.acc := rfl
@[simp] theorem next64_ports (s : State) : (next64 s).2.ports = s.ports := rfl

/-! ## Flags -/

@[simp] theorem recordError_playing (e : ErrorCode) (t : Status) : (recordError e t).playing = t.playing := rfl
@[simp] theorem recordError_seeded (e : ErrorCode) (t : Status) : (recordError e t).seeded = t.seeded := rfl
@[simp] theorem recordError_fatal (e : ErrorCode) (t : Status) : (recordError e t).fatal = (t.fatal || decide (e = .range)) := rfl
@[simp] theorem recordError_stopCause (e : ErrorCode) (t : Status) : (recordError e t).stopCause = t.stopCause := rfl
@[simp] theorem recordError_errflags (e : ErrorCode) (t : Status) : (recordError e t).errflags = t.errflags ||| e.flag := rfl
@[simp] theorem clearErrors_playing (t : Status) : (clearErrors t).playing = t.playing := rfl
@[simp] theorem clearErrors_seeded (t : Status) : (clearErrors t).seeded = t.seeded := rfl
@[simp] theorem clearErrors_fatal (t : Status) : (clearErrors t).fatal = t.fatal := rfl
@[simp] theorem clearErrors_stopCause (t : Status) : (clearErrors t).stopCause = t.stopCause := rfl
@[simp] theorem clearErrors_errflags (t : Status) : (clearErrors t).errflags = t.errflags &&& 0b010000#6 := rfl

end Sys2Proof.Laws
end

