-- ==== Sys2Proof/Laws/Memory.lean ====
section
/-!
SUPPORT. The laws of the word memories: a read after a write, and that every memory operation keeps the canonical form
(20_memory.md R50, log 4).
-/

namespace Sys2Proof.Laws

open Sys2Proof.Machine

@[simp] theorem read_nil (a : Nat) : Memory.read [] a = 0#32 := rfl

theorem wfFrom_mono {length low low' : Nat} {m : Memory} (h : Memory.wfFrom length low m = true)
    (hl : low' ≤ low) : Memory.wfFrom length low' m = true := by
  cases m with
  | nil => rfl
  | cons p rest =>
    simp only [Memory.wfFrom, Bool.and_eq_true, decide_eq_true_eq] at h ⊢
    exact ⟨⟨⟨by omega, h.1.1.2⟩, h.1.2⟩, h.2⟩

/-- Below its first index a canonical memory reads +0.0. -/
theorem read_below {length low a : Nat} {m : Memory} (h : Memory.wfFrom length low m = true) (ha : a < low) :
    Memory.read m a = 0#32 := by
  induction m generalizing low with
  | nil => rfl
  | cons p rest ih =>
    simp only [Memory.wfFrom, Bool.and_eq_true, decide_eq_true_eq] at h
    have hne : a ≠ p.1 := by omega
    simp only [Memory.read, hne, if_false]
    exact ih h.2 (by omega)

/-- Outside its length a canonical memory reads +0.0. -/
theorem read_beyond {length low a : Nat} {m : Memory} (h : Memory.wfFrom length low m = true) (ha : length ≤ a) :
    Memory.read m a = 0#32 := by
  induction m generalizing low with
  | nil => rfl
  | cons p rest ih =>
    simp only [Memory.wfFrom, Bool.and_eq_true, decide_eq_true_eq] at h
    have hne : a ≠ p.1 := by omega
    simp only [Memory.read, hne, if_false]
    exact ih h.2

theorem read_write_same_from {length low a : Nat} {m : Memory} (v : Word32)
    (h : Memory.wfFrom length low m = true) : Memory.read (Memory.write m a v) a = v := by
  induction m generalizing low with
  | nil => by_cases hv : v = 0#32 <;> simp [Memory.write, Memory.read, hv]
  | cons p rest ih =>
    simp only [Memory.wfFrom, Bool.and_eq_true, decide_eq_true_eq] at h
    unfold Memory.write
    by_cases h1 : a < p.1
    · have hne : a ≠ p.1 := by omega
      by_cases hv : v = 0#32
      · simp only [h1, hv, if_true, Memory.read, hne, if_false]
        exact read_below h.2 (by omega)
      · simp [h1, hv, Memory.read]
    · by_cases h2 : a = p.1
      · by_cases hv : v = 0#32
        · simp only [h2, Nat.lt_irrefl, if_false, if_true, hv]
          exact read_below h.2 (by omega)
        · simp [h2, hv, Memory.read]
      · simp only [h1, h2, if_false, Memory.read]
        exact ih h.2

theorem read_write_other (m : Memory) {a b : Nat} (v : Word32) (hab : b ≠ a) :
    Memory.read (Memory.write m a v) b = Memory.read m b := by
  induction m with
  | nil => by_cases hv : v = 0#32 <;> simp [Memory.write, Memory.read, hv, hab]
  | cons p rest ih =>
    unfold Memory.write
    by_cases h1 : a < p.1
    · by_cases hv : v = 0#32 <;> simp [h1, hv, Memory.read, hab]
    · by_cases h2 : a = p.1
      · have hb : b ≠ p.1 := by omega
        by_cases hv : v = 0#32 <;> simp [h2, hv, Memory.read, hb]
      · simp only [h1, h2, if_false, Memory.read, ih]

theorem wfFrom_write {length low a : Nat} {m : Memory} (v : Word32) (h : Memory.wfFrom length low m = true)
    (hlo : low ≤ a) (ha : a < length) : Memory.wfFrom length low (Memory.write m a v) = true := by
  induction m generalizing low with
  | nil => by_cases hv : v = 0#32 <;> simp [Memory.write, Memory.wfFrom, hv, hlo, ha]
  | cons p rest ih =>
    have h' := h
    simp only [Memory.wfFrom, Bool.and_eq_true, decide_eq_true_eq] at h'
    obtain ⟨⟨⟨hl, hp⟩, hne⟩, hr⟩ := h'
    unfold Memory.write
    by_cases h1 : a < p.1
    · by_cases hv : v = 0#32
      · simpa [h1, hv] using h
      · simp only [h1, hv, if_true, if_false, Memory.wfFrom, Bool.and_eq_true, decide_eq_true_eq]
        exact ⟨⟨⟨hlo, ha⟩, by simpa using hv⟩, ⟨⟨by omega, hp⟩, hne⟩, hr⟩
    · by_cases h2 : a = p.1
      · by_cases hv : v = 0#32
        · simp only [h2, Nat.lt_irrefl, if_false, if_true, hv]
          exact wfFrom_mono hr (by omega)
        · simp only [h2, Nat.lt_irrefl, if_false, if_true, hv, Memory.wfFrom, Bool.and_eq_true, decide_eq_true_eq]
          exact ⟨⟨⟨hl, hp⟩, by simpa using hv⟩, hr⟩
      · simp only [h1, h2, if_false, Memory.wfFrom, Bool.and_eq_true, decide_eq_true_eq]
        exact ⟨⟨⟨hl, hp⟩, hne⟩, ih hr (by omega)⟩

/-- A write keeps the canonical form. -/
theorem wf_write {length a : Nat} {m : Memory} (v : Word32) (h : Memory.wf length m = true) (ha : a < length) :
    Memory.wf length (Memory.write m a v) = true :=
  wfFrom_write v h (Nat.zero_le a) ha

/-- A read of the word written gives the value written. -/
theorem read_write_same {length a : Nat} {m : Memory} (v : Word32) (h : Memory.wf length m = true) :
    Memory.read (Memory.write m a v) a = v :=
  read_write_same_from v h

theorem wf_nil (length : Nat) : Memory.wf length [] = true := rfl

/-- The three memories of the reset state are in canonical form. -/
theorem wf_reset (space : Space) : Memory.wf space.length (State.reset.memory space) = true := by
  cases space <;> rfl

/-- A write to one space leaves the contents of the others alone. -/
theorem memory_memWrite (space space' : Space) (i : Nat) (v : Word32) (s : State) :
    (memWrite space i v s).memory space' =
      if space' = space then Memory.write (s.memory space) i v else s.memory space' := by
  cases space <;> cases space' <;> rfl

/-- Every memory operation keeps the canonical form of every memory. -/
theorem wf_memWrite {space : Space} {i : Nat} (v : Word32) {s : State} (hi : i < space.length)
    (h : ∀ space', Memory.wf space'.length (s.memory space') = true) (space' : Space) :
    Memory.wf space'.length ((memWrite space i v s).memory space') = true := by
  rw [memory_memWrite]
  split
  · next he => rw [he]; exact wf_write v (h space) hi
  · exact h space'

/-- `MemRead` after `MemWrite`, in a state whose memories are canonical. -/
theorem memRead_memWrite {space : Space} (space' : Space) (i j : Nat) (v : Word32) {s : State}
    (h : Memory.wf space.length (s.memory space) = true) :
    memRead space' j (memWrite space i v s) = if space' = space ∧ j = i then v else memRead space' j s := by
  unfold memRead
  rw [memory_memWrite]
  by_cases hs : space' = space
  · subst hs
    by_cases hj : j = i
    · subst hj; simp [read_write_same v h]
    · simp [hj, read_write_other _ v hj]
  · simp [hs]

end Sys2Proof.Laws
end

