-- ==== Sys2Proof/Laws/Ops.lean ====
section
/-!
SUPPORT. For each shared operation, once, everything it can do: the checks, the responses, the draws, the noise banks
and the parts of an iteration. Later proofs cite these and do not unfold the operations.
-/

namespace Sys2Proof.Laws

open Sys2Proof.Machine

/-! ## Responses and checks -/

theorem respond_next {v : Word64} {s t : State} (h : respond v s = .next t) :
    t = s.present { err := 0#4, data := v } := by
  simp only [respond, Host.Outcome.next.injEq] at h
  exact h.symm

theorem raise_next {e : ErrorCode} {s t : State} (h : raise e s = .next t) : t = errorState e s := by
  simp only [raise, Host.Outcome.next.injEq] at h
  exact h.symm

@[simp] theorem check_pass (e : ErrorCode) (s : State) (rest : State → Answer) : check e false s rest = rest s := rfl

@[simp] theorem check_fail (e : ErrorCode) (s : State) (rest : State → Answer) : check e true s rest = raise e s := rfl

/-- A check either raises its error or goes on with the same state. -/
theorem check_next {e : ErrorCode} {bad : Bool} {s t : State} {rest : State → Answer}
    (h : check e bad s rest = .next t) : (bad = true ∧ t = errorState e s) ∨ (bad = false ∧ rest s = .next t) := by
  cases bad with
  | true => exact .inl ⟨rfl, raise_next h⟩
  | false => exact .inr ⟨rfl, h⟩

theorem fatalGate_pass {s : State} (rest : State → Answer) (h : s.status.fatal = false) :
    fatalGate s rest = rest s := by
  rw [fatalGate, h, check_pass]

theorem fatalGate_closed {s : State} (rest : State → Answer) (h : s.status.fatal = true) :
    fatalGate s rest = raise .fatal s := by
  rw [fatalGate, h, check_fail]

theorem idleCheck_pass {s : State} (rest : State → Answer) (h : s.status.playing = false) :
    idleCheck s rest = rest s := by
  rw [idleCheck, h, check_pass]

theorem idleCheck_playing {s : State} (rest : State → Answer) (h : s.status.playing = true) :
    idleCheck s rest = raise .state s := by
  rw [idleCheck, h, check_fail]

theorem seededGate_pass {s : State} (rest : State → Answer) (h : s.status.seeded = true) :
    seededGate s rest = rest s := by
  rw [seededGate, h, Bool.not_true, check_pass]

theorem seededGate_unseeded {s : State} (rest : State → Answer) (h : s.status.seeded = false) :
    seededGate s rest = raise .state s := by
  rw [seededGate, h, Bool.not_false, check_fail]

/-- What a draw command can do: one of three errors, or the draw. -/
theorem drawCommand_next {draw : State → Word64 × State} {s t : State} (h : drawCommand draw s = .next t) :
    (s.status.fatal = true ∧ t = errorState .fatal s) ∨
    (s.status.fatal = false ∧ (s.status.seeded = false ∨ s.status.playing = true) ∧ t = errorState .state s) ∨
    (s.status.fatal = false ∧ s.status.seeded = true ∧ s.status.playing = false ∧
      t = (draw s).2.present { err := 0#4, data := (draw s).1 }) := by
  rw [drawCommand, fatalGate] at h
  rcases check_next h with ⟨hf, ht⟩ | ⟨hf, h⟩
  · exact .inl ⟨hf, ht⟩
  · rw [seededGate] at h
    rcases check_next h with ⟨hs, ht⟩ | ⟨hs, h⟩
    · exact .inr (.inl ⟨hf, .inl (by simpa using hs), ht⟩)
    · rw [idleCheck] at h
      rcases check_next h with ⟨hp, ht⟩ | ⟨hp, h⟩
      · exact .inr (.inl ⟨hf, .inr hp, ht⟩)
      · exact .inr (.inr ⟨hf, by simpa using hs, hp, respond_next h⟩)

theorem drawCommand_pass (draw : State → Word64 × State) {s : State} (hf : s.status.fatal = false)
    (hs : s.status.seeded = true) (hp : s.status.playing = false) :
    drawCommand draw s = .next ((draw s).2.present { err := 0#4, data := (draw s).1 }) := by
  rw [drawCommand, fatalGate_pass _ hf, seededGate_pass _ hs, idleCheck_pass _ hp, respond]

/-- Two errors never have the same code, and none has the code of success. -/
theorem code_injective : ∀ e e' : ErrorCode, e.code = e'.code → e = e' := by
  intro e e'; cases e <;> cases e' <;> decide

theorem code_ne_zero (e : ErrorCode) : e.code ≠ 0#4 := by cases e <;> decide

/-! ## Draws -/

theorem next32_state (s : State) : (next32 s).2 = { s with rng := xorshift s.rng } := rfl

theorem nextFloat_state (s : State) : (nextFloat s).2 = { s with rng := xorshift s.rng } := rfl

theorem redrawPink_state (s : State) (i : Fin 5) :
    redrawPink s i = { s with rng := xorshift s.rng, pink := (redrawPink s i).pink } := by
  simp only [redrawPink, next32_state]

/-- A fold of a function that writes `rng` and `pink` only does so too. -/
theorem foldl_draws {α : Type} {f : State → α → State}
    (hf : ∀ s a, f s a = { s with rng := (f s a).rng, pink := (f s a).pink }) (l : List α) (s : State) :
    l.foldl f s = { s with rng := (l.foldl f s).rng, pink := (l.foldl f s).pink } := by
  induction l generalizing s with
  | nil => rfl
  | cons a l ih =>
    have h := hf s a
    have h' := ih (f s a)
    rw [List.foldl_cons]
    generalize f s a = t at h h' ⊢
    generalize l.foldl f t = u at h' ⊢
    rw [h']
    rw [h]

theorem foldl_redrawPink (l : List (Fin 5)) (s : State) :
    l.foldl redrawPink s = { s with rng := (l.foldl redrawPink s).rng, pink := (l.foldl redrawPink s).pink } :=
  foldl_draws redrawPink_state l s

theorem pinkConstruct_state (s : State) :
    pinkConstruct s = { s with rng := (pinkConstruct s).rng, pink := (pinkConstruct s).pink } := by
  rw [pinkConstruct, foldl_redrawPink]

theorem pinkTerm_state (diff : BitVec 5) (r : Word32 × State) (i : Fin 5) :
    (pinkTerm diff r i).2 = { r.2 with rng := (pinkTerm diff r i).2.rng, pink := (pinkTerm diff r i).2.pink } := by
  simp only [pinkTerm]
  split
  · exact redrawPink_state r.2 i
  · rfl

theorem foldl_pinkTerm (diff : BitVec 5) (l : List (Fin 5)) (r : Word32 × State) :
    (l.foldl (pinkTerm diff) r).2 =
      { r.2 with rng := (l.foldl (pinkTerm diff) r).2.rng, pink := (l.foldl (pinkTerm diff) r).2.pink } := by
  induction l generalizing r with
  | nil => rfl
  | cons i l ih =>
    have h := pinkTerm_state diff r i
    have h' := ih (pinkTerm diff r i)
    rw [List.foldl_cons]
    generalize pinkTerm diff r i = t at h h' ⊢
    generalize l.foldl (pinkTerm diff) t = u at h' ⊢
    rw [h', h]

/-- `PinkNextValue()` writes `rng` and `pink` only. -/
theorem pinkNextValue_state (s : State) :
    (pinkNextValue s).2 = { s with rng := (pinkNextValue s).2.rng, pink := (pinkNextValue s).2.pink } := by
  rw [pinkNextValue, foldl_pinkTerm]

theorem pinkNextFloat_state (s : State) :
    (pinkNextFloat s).2 = { s with rng := (pinkNextFloat s).2.rng, pink := (pinkNextFloat s).2.pink } := by
  rw [pinkNextFloat]
  exact pinkNextValue_state s

/-! ## Noise banks -/

theorem refreshWhiteWord_state (s : State) (i : Nat) :
    refreshWhiteWord s i =
      { s with rng := xorshift s.rng, nwhite := Memory.write s.nwhite i (bankWord (nextFloat s).1) } := rfl

theorem foldl_refreshWhiteWord (l : List Nat) (s : State) :
    l.foldl refreshWhiteWord s =
      { s with rng := (l.foldl refreshWhiteWord s).rng, nwhite := (l.foldl refreshWhiteWord s).nwhite } := by
  induction l generalizing s with
  | nil => rfl
  | cons i l ih =>
    have h := refreshWhiteWord_state s i
    have h' := ih (refreshWhiteWord s i)
    rw [List.foldl_cons]
    generalize refreshWhiteWord s i = t at h h' ⊢
    generalize l.foldl refreshWhiteWord t = u at h' ⊢
    rw [h', h]

/-- `RefreshWhite()` writes `rng` and the white bank only. -/
theorem refreshWhite_state (s : State) :
    refreshWhite s = { s with rng := (refreshWhite s).rng, nwhite := (refreshWhite s).nwhite } := by
  rw [refreshWhite, foldl_refreshWhiteWord]

theorem refreshPinkWord_state (s : State) (i : Nat) :
    refreshPinkWord s i =
      { s with rng := (refreshPinkWord s i).rng, pink := (refreshPinkWord s i).pink,
               npink := Memory.write s.npink i (bankWord (pinkNextFloat s).1) } := by
  have h := pinkNextFloat_state s
  simp only [refreshPinkWord, memWrite]
  generalize pinkNextFloat s = t at h ⊢
  rw [h]

theorem foldl_refreshPinkWord (l : List Nat) (s : State) :
    l.foldl refreshPinkWord s =
      { s with rng := (l.foldl refreshPinkWord s).rng, pink := (l.foldl refreshPinkWord s).pink,
               npink := (l.foldl refreshPinkWord s).npink } := by
  induction l generalizing s with
  | nil => rfl
  | cons i l ih =>
    have h := refreshPinkWord_state s i
    have h' := ih (refreshPinkWord s i)
    rw [List.foldl_cons]
    generalize refreshPinkWord s i = t at h h' ⊢
    generalize l.foldl refreshPinkWord t = u at h' ⊢
    rw [h', h]

/-- `RefreshPink()` writes `rng`, `pink` and the pink bank only. -/
theorem refreshPink_state (s : State) :
    refreshPink s =
      { s with rng := (refreshPink s).rng, pink := (refreshPink s).pink, npink := (refreshPink s).npink } := by
  rw [refreshPink, foldl_refreshPinkWord]

/-! ## The iteration -/

/-- A phase wrap writes `rng`, the pink state, the banks and the LFSR only. -/
theorem wrapRefresh_state (s : State) :
    wrapRefresh s =
      { s with rng := (wrapRefresh s).rng, pink := (wrapRefresh s).pink, nwhite := (wrapRefresh s).nwhite,
               npink := (wrapRefresh s).npink, lfsr := (wrapRefresh s).lfsr } := by
  unfold wrapRefresh
  split
  · rw [refreshWhite_state]
  · rw [refreshPink_state]
  · rfl
  · rfl

/-- `AdvancePhase()` writes, besides what a wrap writes, the phase only. -/
theorem advancePhase_state (s : State) :
    advancePhase s =
      { s with phase := (advancePhase s).phase, rng := (advancePhase s).rng, pink := (advancePhase s).pink,
               nwhite := (advancePhase s).nwhite, npink := (advancePhase s).npink,
               lfsr := (advancePhase s).lfsr } := by
  simp only [advancePhase]
  split
  · rw [wrapRefresh_state]
  · rfl

theorem phaserTapSample_state (x : F32) (s : State) :
    (phaserTapSample x s).2 =
      { s with phaser := Memory.write s.phaser s.pha.ipp.toNat x,
               pha := { s.pha with ipp := s.pha.ipp + 1#10 } } := by
  simp only [phaserTapSample, memWrite]

/-- One sub-sample: what it writes is among these fields. -/
theorem subSample_state (r : F32 × State) :
    (subSample r).2 =
      { r.2 with phase := (subSample r).2.phase, rng := (subSample r).2.rng, pink := (subSample r).2.pink,
                 nwhite := (subSample r).2.nwhite, npink := (subSample r).2.npink, lfsr := (subSample r).2.lfsr,
                 flt := (subSample r).2.flt, phaser := (subSample r).2.phaser, pha := (subSample r).2.pha } := by
  have h := advancePhase_state r.2
  simp only [subSample, phaserTapSample_state]
  generalize advancePhase r.2 = t at h ⊢
  rw [h]

theorem subSampleLoop_state (n : Nat) (r : F32 × State) :
    (subSampleLoop n r).2 =
      { r.2 with phase := (subSampleLoop n r).2.phase, rng := (subSampleLoop n r).2.rng,
                 pink := (subSampleLoop n r).2.pink, nwhite := (subSampleLoop n r).2.nwhite,
                 npink := (subSampleLoop n r).2.npink, lfsr := (subSampleLoop n r).2.lfsr,
                 flt := (subSampleLoop n r).2.flt, phaser := (subSampleLoop n r).2.phaser,
                 pha := (subSampleLoop n r).2.pha } := by
  induction n generalizing r with
  | zero => rfl
  | succ n ih =>
    have h := subSample_state r
    have h' := ih (subSample r)
    rw [subSampleLoop]
    generalize subSample r = t at h h' ⊢
    generalize subSampleLoop n t = u at h' ⊢
    rw [h', h]

/-- `SubSamples()`: what it writes is among these fields (45_synth_datapath.md R180). -/
theorem subSamples_state (s : State) :
    (subSamples s).2 =
      { s with phase := (subSamples s).2.phase, rng := (subSamples s).2.rng, pink := (subSamples s).2.pink,
               nwhite := (subSamples s).2.nwhite, npink := (subSamples s).2.npink, lfsr := (subSamples s).2.lfsr,
               flt := (subSamples s).2.flt, phaser := (subSamples s).2.phaser, pha := (subSamples s).2.pha } :=
  subSampleLoop_state _ (0#32, s)

/-- Steps 8 and 9 append exactly one sample and write nothing but what the sub-samples write. -/
theorem sampleStep_acc (s : State) :
    (sampleStep s).acc = s.acc ++ [outputSample (subSamples s).1 (subSamples s).2] := by
  rw [sampleStep, accAppend_acc, subSamples_state]

theorem sampleStep_status (s : State) : (sampleStep s).status = s.status := by
  rw [sampleStep, accAppend_status, subSamples_state]

/-- Step 1 writes the repeat counter, and at its limit the frequency and envelope groups. -/
theorem repeatStep_state (s : State) :
    repeatStep s = { s with rep := { s.rep with time := (repeatStep s).rep.time }, freq := (repeatStep s).freq,
                            env := (repeatStep s).env } := by
  unfold repeatStep
  dsimp only
  split <;> rfl

/-- Step 3 writes the frequency group, and the status where it ends the run. -/
theorem slideStep_state (s : State) :
    slideStep s = { s with freq := (slideStep s).freq, status := (slideStep s).status } := by
  unfold slideStep
  dsimp only
  split
  · split <;> rfl
  · rfl

/-- Step 3 leaves the status alone or ends the run by the frequency limit. -/
theorem slideStep_status (s : State) :
    (slideStep s).status = s.status ∨
    (slideStep s).status = { s.status with playing := false, stopCause := .frequencyLimit } := by
  unfold slideStep
  dsimp only
  split
  · split
    · exact .inr rfl
    · exact .inl rfl
  · exact .inl rfl

/-- Step 4 writes the effective period and the vibrato phase. -/
theorem vibratoStep_state (s : State) :
    vibratoStep s = { s with freq := (vibratoStep s).freq,
                             vib := { s.vib with phase := (vibratoStep s).vib.phase } } := by
  unfold vibratoStep
  split <;> rfl

/-- With its ends in order the clamp is one choice of three. -/
theorem clamp32_eq {low high : F32} (h : lt32 high low = false) (x : F32) :
    clamp32 low high x = if lt32 x low then low else if lt32 high x then high else x := by
  unfold clamp32
  by_cases hx : lt32 x low = true <;> simp [hx, h]

/-- Step 5 writes the duty and the high-pass coefficient. -/
theorem rampStep_state (s : State) :
    rampStep s = { s with freq := { s.freq with squareDuty := (rampStep s).freq.squareDuty },
                          flt := { s.flt with flthp := (rampStep s).flt.flthp } } := by
  simp only [rampStep]

/-- The first half of step 6 writes the envelope, and the status where it ends the run. -/
theorem stageStep_state (s : State) :
    stageStep s = { s with env := advanceStages s.env, status := (stageStep s).status } := by
  unfold stageStep
  dsimp only
  split <;> rfl

/-- A pass of the stage loop keeps the durations and the volume. -/
theorem advanceStage_state (e : EnvRegs) :
    advanceStage e = { e with stage := (advanceStage e).stage, time := (advanceStage e).time } := by
  unfold advanceStage
  split
  all_goals first | rfl | (split <;> rfl)

/-- `n` sub-samples are `n` turns of `subSample`. -/
theorem subSampleLoop_iterate (n : Nat) (r : F32 × State) : subSampleLoop n r = subSample^[n] r := by
  induction n generalizing r with
  | zero => rfl
  | succ n ih => rw [subSampleLoop, ih, Function.iterate_succ_apply]

/-- A wave code as a number: the form `wrapRefresh` and `waveform` match on. -/
theorem wave_ne_iff (w : Word32) (n : Nat) (h : n < 2 ^ 32) : w ≠ BitVec.ofNat 32 n ↔ w.toNat ≠ n := by
  rw [← BitVec.toNat_inj.ne, BitVec.toNat_ofNat, Nat.mod_eq_of_lt h]

/-- What a wrap of each wave type leaves alone (45_synth_datapath.md R181 to R183). -/
theorem wrapRefresh_kept (s : State) :
    (s.p 0 ≠ 3#32 → (wrapRefresh s).nwhite = s.nwhite) ∧
    (s.p 0 ≠ 5#32 → (wrapRefresh s).npink = s.npink ∧ (wrapRefresh s).pink = s.pink) ∧
    (s.p 0 ≠ 8#32 → (wrapRefresh s).lfsr = s.lfsr) ∧
    (s.p 0 ≠ 3#32 → s.p 0 ≠ 5#32 → (wrapRefresh s).rng = s.rng) := by
  rw [wave_ne_iff _ 3 (by decide), wave_ne_iff _ 5 (by decide), wave_ne_iff _ 8 (by decide)]
  unfold wrapRefresh
  split <;> rename_i h
  · rw [refreshWhite_state]; simp [h]
  · rw [refreshPink_state]; simp [h]
  · simp [h]
  · exact ⟨fun _ => rfl, fun _ => ⟨rfl, rfl⟩, fun _ => rfl, fun _ _ => rfl⟩

theorem unlessEnded_playing (rest : State → State) {s : State} (h : s.status.playing = true) :
    unlessEnded rest s = rest s := by
  simp [unlessEnded, h]

theorem unlessEnded_ended (rest : State → State) {s : State} (h : s.status.playing = false) :
    unlessEnded rest s = s := by
  simp [unlessEnded, h]

theorem runLoop_ended (n : Nat) {s : State} (h : s.status.playing = false) : runLoop n s = s := by
  cases n <;> simp [runLoop, h]

theorem runLoop_playing (n : Nat) {s : State} (h : s.status.playing = true) :
    runLoop (n + 1) s = runLoop n (iteration s) := by
  simp [runLoop, h]

end Sys2Proof.Laws
end

