-- ==== Sys2Proof/Laws/PerInstr.lean ====
section
/-!
SUPPORT. The one statement made per command: its operands fit their fields, and the encoder's word matches a row of the
opcode table by the table's own match and mask (30_encoding.md R73, R74).
-/

namespace Sys2Proof.Laws

theorem wordWellFormed_of_row {w : CommandWord} {row : TableRow} (h : row ∈ opcodeTable)
    (hs : row.selects w = true) : wordWellFormed w = true :=
  List.any_eq_true.mpr ⟨row, h, hs⟩

theorem selects_encodeN (m : String) (op : BitVec 8) : (tableRow m .n op).selects (encodeN op) = true := by
  have h : encodeN op = op ++ 0#72 := by
    apply BitVec.eq_of_getLsbD_eq
    intro i hi
    rw [encodeN, bit_of_commandWord _ _ _ _ hi, BitVec.getLsbD_append]
    by_cases h1 : i < 64
    · simp [h1, show i < 72 by omega]
    · by_cases h2 : i < 72 <;> simp [h1, h2]
  have hm : (0xFFFFFFFFFFFFFFFFFFFF#80) = BitVec.allOnes 80 := by decide
  simp only [TableRow.selects, tableRow, Form.mask, h, hm, BitVec.and_allOnes, beq_self_eq_true]

/-- A word and a mask agree with a row when they do so bit by bit. -/
theorem selects_of_bits {row : TableRow} {w : CommandWord}
    (h : ∀ i, i < 80 → (w.getLsbD i && row.mask.getLsbD i) = row.bits.getLsbD i) : row.selects w = true := by
  simp only [TableRow.selects, beq_iff_eq]
  apply BitVec.eq_of_getLsbD_eq
  intro i hi
  rw [BitVec.getLsbD_and]
  exact h i hi

theorem mask_bit_i : ∀ i, i < 80 → (Form.mask .i).getLsbD i = (decide (i < 64) || decide (72 ≤ i)) := by decide
theorem mask_bit_d32 : ∀ i, i < 80 → (Form.mask .d32).getLsbD i = decide (32 ≤ i) := by decide
theorem mask_bit_id32 : ∀ i, i < 80 →
    (Form.mask .id32).getLsbD i = ((decide (32 ≤ i) && decide (i < 64)) || decide (72 ≤ i)) := by decide
theorem mask_bit_d64 : ∀ i, i < 80 → (Form.mask .d64).getLsbD i = decide (64 ≤ i) := by decide

theorem selects_encodeI (m : String) (op idx : BitVec 8) : (tableRow m .i op).selects (encodeI op idx) = true := by
  apply selects_of_bits
  intro i hi
  simp only [tableRow, mask_bit_i i hi, encodeI, bit_of_commandWord _ _ _ _ hi, BitVec.getLsbD_append]
  by_cases h1 : i < 64
  · simp [h1, show i < 72 by omega]
  · by_cases h2 : i < 72
    · simp [h1, h2]
    · simp [h1, h2, show 72 ≤ i by omega]

theorem selects_encodeD32 (m : String) (op : BitVec 8) (low : Word32) :
    (tableRow m .d32 op).selects (encodeD32 op low) = true := by
  apply selects_of_bits
  intro i hi
  simp only [tableRow, mask_bit_d32 i hi, encodeD32, bit_of_commandWord _ _ _ _ hi, BitVec.getLsbD_append]
  by_cases h0 : i < 32
  · simp [show ¬ 32 ≤ i by omega, show i < 72 by omega]
  · by_cases h1 : i < 64
    · simp [h0, h1, show i < 72 by omega]
    · by_cases h2 : i < 72
      · simp [h1, h2]
      · simp [h1, h2, show 32 ≤ i by omega]

theorem selects_encodeID32 (m : String) (op idx : BitVec 8) (low : Word32) :
    (tableRow m .id32 op).selects (encodeID32 op idx low) = true := by
  apply selects_of_bits
  intro i hi
  simp only [tableRow, mask_bit_id32 i hi, encodeID32, bit_of_commandWord _ _ _ _ hi, BitVec.getLsbD_append]
  by_cases h0 : i < 32
  · simp [show ¬ 32 ≤ i by omega, show i < 72 by omega, show ¬ 72 ≤ i by omega]
  · by_cases h1 : i < 64
    · simp [h0, h1, show i < 72 by omega]
    · by_cases h2 : i < 72
      · simp [h1, h2]
      · simp [h1, h2, show 72 ≤ i by omega]

theorem selects_encodeD64 (m : String) (op : BitVec 8) (data : Word64) :
    (tableRow m .d64 op).selects (encodeD64 op data) = true := by
  apply selects_of_bits
  intro i hi
  simp only [tableRow, mask_bit_d64 i hi, encodeD64, bit_of_commandWord _ _ _ _ hi, BitVec.getLsbD_append]
  by_cases h1 : i < 64
  · simp [show ¬ 64 ≤ i by omega, show i < 72 by omega]
  · by_cases h2 : i < 72
    · simp [h1, h2]
    · simp [h1, h2, show 64 ≤ i by omega]

/-- The operands fit, and the encoder's word is a legal command word. -/
def EncodedWellFormed.Statement (i : Instr) : Prop := i.wellFormed = true ∧ wordWellFormed (encode i) = true

theorem row_mem (k : Nat) (hk : k < opcodeTable.length) : opcodeTable[k] ∈ opcodeTable := List.getElem_mem hk

theorem EncodedWellFormed.nop : EncodedWellFormed.Statement .nop :=
  ⟨rfl, wordWellFormed_of_row (row_mem 0 (by decide)) (selects_encodeN _ _)⟩

theorem EncodedWellFormed.reset : EncodedWellFormed.Statement .reset :=
  ⟨rfl, wordWellFormed_of_row (row_mem 1 (by decide)) (selects_encodeN _ _)⟩

theorem EncodedWellFormed.statusRead : EncodedWellFormed.Statement .statusRead :=
  ⟨rfl, wordWellFormed_of_row (row_mem 2 (by decide)) (selects_encodeN _ _)⟩

theorem EncodedWellFormed.errClear : EncodedWellFormed.Statement .errClear :=
  ⟨rfl, wordWellFormed_of_row (row_mem 3 (by decide)) (selects_encodeN _ _)⟩

theorem EncodedWellFormed.stateRead (number : BitVec 8) : EncodedWellFormed.Statement (.stateRead number) :=
  ⟨by simp only [Instr.wellFormed, decide_eq_true_eq]; omega,
    wordWellFormed_of_row (row_mem 4 (by decide)) (selects_encodeI _ _ _)⟩

theorem EncodedWellFormed.memRead (space : BitVec 8) (index : Word32) : EncodedWellFormed.Statement (.memRead space index) :=
  ⟨by simp only [Instr.wellFormed, Bool.and_eq_true, decide_eq_true_eq]; omega,
    wordWellFormed_of_row (row_mem 5 (by decide)) (selects_encodeID32 _ _ _ _)⟩

theorem EncodedWellFormed.paramWrite (number : BitVec 8) (value : Word32) : EncodedWellFormed.Statement (.paramWrite number value) :=
  ⟨by simp only [Instr.wellFormed, Bool.and_eq_true, decide_eq_true_eq]; omega,
    wordWellFormed_of_row (row_mem 6 (by decide)) (selects_encodeID32 _ _ _ _)⟩

theorem EncodedWellFormed.paramRead (number : BitVec 8) : EncodedWellFormed.Statement (.paramRead number) :=
  ⟨by simp only [Instr.wellFormed, decide_eq_true_eq]; omega,
    wordWellFormed_of_row (row_mem 7 (by decide)) (selects_encodeI _ _ _)⟩

theorem EncodedWellFormed.rngSeed (seed : Word64) : EncodedWellFormed.Statement (.rngSeed seed) :=
  ⟨by simp only [Instr.wellFormed, decide_eq_true_eq]; omega,
    wordWellFormed_of_row (row_mem 8 (by decide)) (selects_encodeD64 _ _ _)⟩

theorem EncodedWellFormed.rngNext64 : EncodedWellFormed.Statement .rngNext64 :=
  ⟨rfl, wordWellFormed_of_row (row_mem 9 (by decide)) (selects_encodeN _ _)⟩

theorem EncodedWellFormed.rngNext32 : EncodedWellFormed.Statement .rngNext32 :=
  ⟨rfl, wordWellFormed_of_row (row_mem 10 (by decide)) (selects_encodeN _ _)⟩

theorem EncodedWellFormed.rngNextF : EncodedWellFormed.Statement .rngNextF :=
  ⟨rfl, wordWellFormed_of_row (row_mem 11 (by decide)) (selects_encodeN _ _)⟩

theorem EncodedWellFormed.pinkNextV : EncodedWellFormed.Statement .pinkNextV :=
  ⟨rfl, wordWellFormed_of_row (row_mem 12 (by decide)) (selects_encodeN _ _)⟩

theorem EncodedWellFormed.pinkNextF : EncodedWellFormed.Statement .pinkNextF :=
  ⟨rfl, wordWellFormed_of_row (row_mem 13 (by decide)) (selects_encodeN _ _)⟩

theorem EncodedWellFormed.accClear : EncodedWellFormed.Statement .accClear :=
  ⟨rfl, wordWellFormed_of_row (row_mem 14 (by decide)) (selects_encodeN _ _)⟩

theorem EncodedWellFormed.accAppend (sample : F32) : EncodedWellFormed.Statement (.accAppend sample) :=
  ⟨by simp only [Instr.wellFormed, decide_eq_true_eq]; omega,
    wordWellFormed_of_row (row_mem 15 (by decide)) (selects_encodeD32 _ _ _)⟩

theorem EncodedWellFormed.accSize : EncodedWellFormed.Statement .accSize :=
  ⟨rfl, wordWellFormed_of_row (row_mem 16 (by decide)) (selects_encodeN _ _)⟩

theorem EncodedWellFormed.accRead (index : Word32) : EncodedWellFormed.Statement (.accRead index) :=
  ⟨by simp only [Instr.wellFormed, decide_eq_true_eq]; omega,
    wordWellFormed_of_row (row_mem 17 (by decide)) (selects_encodeD32 _ _ _)⟩

theorem EncodedWellFormed.accScale (factor : F32) : EncodedWellFormed.Statement (.accScale factor) :=
  ⟨by simp only [Instr.wellFormed, decide_eq_true_eq]; omega,
    wordWellFormed_of_row (row_mem 18 (by decide)) (selects_encodeD32 _ _ _)⟩

theorem EncodedWellFormed.accPeakMean : EncodedWellFormed.Statement .accPeakMean :=
  ⟨rfl, wordWellFormed_of_row (row_mem 19 (by decide)) (selects_encodeN _ _)⟩

theorem EncodedWellFormed.accReadPcm (format : BitVec 8) (index : Word32) : EncodedWellFormed.Statement (.accReadPcm format index) :=
  ⟨by simp only [Instr.wellFormed, Bool.and_eq_true, decide_eq_true_eq]; omega,
    wordWellFormed_of_row (row_mem 20 (by decide)) (selects_encodeID32 _ _ _ _)⟩

theorem EncodedWellFormed.accStream (format : BitVec 8) : EncodedWellFormed.Statement (.accStream format) :=
  ⟨by simp only [Instr.wellFormed, decide_eq_true_eq]; omega,
    wordWellFormed_of_row (row_mem 21 (by decide)) (selects_encodeI _ _ _)⟩

theorem EncodedWellFormed.synthStart : EncodedWellFormed.Statement .synthStart :=
  ⟨rfl, wordWellFormed_of_row (row_mem 22 (by decide)) (selects_encodeN _ _)⟩

theorem EncodedWellFormed.synthStep : EncodedWellFormed.Statement .synthStep :=
  ⟨rfl, wordWellFormed_of_row (row_mem 23 (by decide)) (selects_encodeN _ _)⟩

theorem EncodedWellFormed.synthRun : EncodedWellFormed.Statement .synthRun :=
  ⟨rfl, wordWellFormed_of_row (row_mem 24 (by decide)) (selects_encodeN _ _)⟩

end Sys2Proof.Laws
end

