-- ==== Sys2Proof/Tests/Slice0.lean ====
section
/-!
SUPPORT. The model's own tests. Expected results come from the examples in the rules of spec/ and from
95_test_vectors.md (S1 to S8, V1 to V51, P1 to P8), never from the model. The witnesses at the end show, for each
statement with hypotheses, a concrete state and operands that meet all of them together.
-/

namespace Sys2Proof.Tests

-- One theorem at a time: hundreds of kernel evaluations side by side would each take a thread.
set_option Elab.async false

open Sys2Proof Sys2Proof.Machine

/-! ## Helpers -/

/-- The next state of an answer. -/
def after : Answer → State
  | .next s => s
  | _ => State.reset

/-- The answer is a next state. -/
def completes : Answer → Bool
  | .next _ => true
  | _ => false

theorem eq_next_after {a : Answer} (h : completes a = true) : a = .next (after a) := by
  cases a with
  | next s => rfl
  | fault r => cases h
  | refused r => cases h

/-- The response and the code of an answer. -/
def answerOf (a : Answer) : Option (Nat × Nat) := (after a).ports.rsp.map fun r => (r.err.toNat, r.data.toNat)

/-- The reset state with these flags. -/
def flagged (playing seeded fatal : Bool) (errflags : BitVec 6) : State :=
  { State.reset with status := { playing := playing, seeded := seeded, fatal := fatal, stopCause := .running,
                                 errflags := errflags } }

/-- The state after `RNG_SEED 0` from hard reset (95_test_vectors.md V2). -/
def seeded0 : State :=
  { flagged false true false 0 with
    rng := 0x8B97815F8AA18089#64, pink := { key := 0, w := #v[10188, 1956, 495, 8847, 344] } }

/-- `seeded0` with ENV_SUSTAIN and ENV_DECAY zero (95_test_vectors.md P2). -/
def quiet : State := { seeded0 with params := (seeded0.params.set 2 0#32).set 3 0#32 }

/-- `seeded0` with no sustain and a decay of one iteration. -/
def brief : State := { quiet with params := quiet.params.set 3 0x3B800000#32 }

/-- `seeded0` with a run begun, its square wave drawing nothing from the banks. -/
def started : State :=
  { seeded0 with
    freq := resetFrequency seeded0.params, env := resetEnvelope seeded0.params, flt := resetFilters seeded0.params,
    vib := resetVibrato seeded0.params, status := { seeded0.status with playing := true } }

/-- `started` with this wave type and a period below its floor of 8.0, so that one iteration is one period. -/
def noisy (wave : Word32) : State :=
  { started with params := started.params.set 0 wave, freq := { started.freq with fperiod := one64 } }

/-- The reset state with these samples. -/
def holding (samples : List F32) : State := { State.reset with acc := samples }

/-! ## WellFormed: each check refuses an ill-formed word (30_encoding.md R73 to R76; V12, V13) -/

theorem test_undefined_op_is_ill_formed : wordWellFormed 0x06000000000000000000#80 = false := by decide +kernel
theorem test_n_with_idx_is_ill_formed : wordWellFormed 0x00010000000000000000#80 = false := by decide +kernel
theorem test_n_with_data_is_ill_formed : wordWellFormed 0x00000000000000000001#80 = false := by decide +kernel
theorem test_i_with_data_is_ill_formed : wordWellFormed 0x04000000000000000001#80 = false := by decide +kernel
theorem test_d32_with_idx_is_ill_formed : wordWellFormed 0x31010000000000000000#80 = false := by decide +kernel
theorem test_d32_with_high_data_is_ill_formed : wordWellFormed 0x31000000000100000000#80 = false := by decide +kernel
theorem test_id32_with_high_data_is_ill_formed : wordWellFormed 0x1005000000013E99999A#80 = false := by decide +kernel
theorem test_d64_with_idx_is_ill_formed : wordWellFormed 0x20010000000000000000#80 = false := by decide +kernel
theorem test_legal_words_are_well_formed :
    ([0x00000000000000000000#80, 0x042A0000000000000000#80, 0x3100000000003F000000#80, 0x101B000000003F800000#80,
      0x2000FFFFFFFFFFFFFFFF#80] : List CommandWord).all wordWellFormed = true := by decide +kernel

/-! ## Decode: every constructor, from words written out by 30_encoding.md R72 to R74 -/

theorem test_decode_nop : decode 0x00000000000000000000#80 = .ok .nop := by rfl
theorem test_decode_reset : decode 0x01000000000000000000#80 = .ok .reset := by rfl
theorem test_decode_statusRead : decode 0x02000000000000000000#80 = .ok .statusRead := by rfl
theorem test_decode_errClear : decode 0x03000000000000000000#80 = .ok .errClear := by rfl
theorem test_decode_stateRead : decode 0x042A0000000000000000#80 = .ok (.stateRead 0x2A#8) := by rfl
theorem test_decode_memRead : decode 0x0501000000000000001F#80 = .ok (.memRead 1#8 31#32) := by rfl
theorem test_decode_paramWrite : decode 0x1005000000003E99999A#80 = .ok (.paramWrite 5#8 0x3E99999A#32) := by rfl
theorem test_decode_paramRead : decode 0x111A0000000000000000#80 = .ok (.paramRead 26#8) := by rfl
theorem test_decode_rngSeed : decode 0x2000123456789ABCDEF0#80 = .ok (.rngSeed 0x123456789ABCDEF0#64) := by rfl
theorem test_decode_rngNext64 : decode 0x21000000000000000000#80 = .ok .rngNext64 := by rfl
theorem test_decode_rngNext32 : decode 0x22000000000000000000#80 = .ok .rngNext32 := by rfl
theorem test_decode_rngNextF : decode 0x23000000000000000000#80 = .ok .rngNextF := by rfl
theorem test_decode_pinkNextV : decode 0x24000000000000000000#80 = .ok .pinkNextV := by rfl
theorem test_decode_pinkNextF : decode 0x25000000000000000000#80 = .ok .pinkNextF := by rfl
theorem test_decode_accClear : decode 0x30000000000000000000#80 = .ok .accClear := by rfl
theorem test_decode_accAppend : decode 0x3100000000003F000000#80 = .ok (.accAppend 0x3F000000#32) := by rfl
theorem test_decode_accSize : decode 0x32000000000000000000#80 = .ok .accSize := by rfl
theorem test_decode_accRead : decode 0x33000000000000000003#80 = .ok (.accRead 3#32) := by rfl
theorem test_decode_accScale : decode 0x34000000000040000000#80 = .ok (.accScale 0x40000000#32) := by rfl
theorem test_decode_accPeakMean : decode 0x35000000000000000000#80 = .ok .accPeakMean := by rfl
theorem test_decode_accReadPcm : decode 0x36020000000000000001#80 = .ok (.accReadPcm 2#8 1#32) := by rfl
theorem test_decode_accStream : decode 0x37030000000000000000#80 = .ok (.accStream 3#8) := by rfl
theorem test_decode_synthStart : decode 0x40000000000000000000#80 = .ok .synthStart := by rfl
theorem test_decode_synthStep : decode 0x41000000000000000000#80 = .ok .synthStep := by rfl
theorem test_decode_synthRun : decode 0x42000000000000000000#80 = .ok .synthRun := by rfl
theorem test_decode_undefined : decode 0x43000000000000000000#80 = .error (.undefinedOp 0x43#8) := by rfl
theorem test_decode_mustBeZero : decode 0x1005000000013E99999A#80 = .error (.mustBeZero 0x10#8) := by rfl

/-! ## One step of each command -/

-- R91's example, and R217: NOP is gated.
theorem test_nop : answerOf (exec .nop started) = some (0, 0) := by decide +kernel
theorem test_nop_gated : answerOf (exec .nop (flagged false false true 0b010000#6)) = some (6, 0) := by decide +kernel
-- R96: RESET clears `fatal`.
theorem test_reset : (after (exec .reset (flagged true true true 0b010000#6))).status = State.reset.status := by
  decide +kernel
-- R92's example, and P2 line 16: 0x100E with `fatal`, `stop_cause` 1 and bit 12.
theorem test_statusRead : answerOf (exec .statusRead started) = some (0, 3) := by decide +kernel
theorem test_statusRead_fatal :
    answerOf (exec .statusRead { State.reset with status :=
      { playing := false, seeded := true, fatal := true, stopCause := .envelope, errflags := 0b010000#6 } }) =
        some (0, 0x100E) := by decide +kernel
-- R93's example.
theorem test_errClear : (after (exec .errClear (flagged false false false 0b000011#6))).status.errflags = 0#6 := by
  decide +kernel
-- V30, and V10 line 3.
theorem test_stateRead : answerOf (exec (.stateRead 2#8) started) = some (0, 0x40912B9AA307340E) := by decide +kernel
theorem test_stateRead_beyond : answerOf (exec (.stateRead 0x2B#8) started) = some (2, 0) := by decide +kernel
-- V1 line 36 and V10 line 1.
theorem test_memRead : answerOf (exec (.memRead 0#8 1023#32) State.reset) = some (0, 0) := by decide +kernel
theorem test_memRead_beyond : answerOf (exec (.memRead 2#8 32#32) State.reset) = some (2, 0) := by decide +kernel
-- R97's examples.
theorem test_paramWrite : (after (exec (.paramWrite 5#8 0x3F000000#32) State.reset)).params[5] = 0x3F000000#32 := by
  decide +kernel
theorem test_paramWrite_illegal : answerOf (exec (.paramWrite 5#8 0x3FC00000#32) State.reset) = some (2, 0) := by
  decide +kernel
-- R98's example.
theorem test_paramRead : answerOf (exec (.paramRead 26#8) State.reset) = some (0, 0x3F000000) := by decide +kernel
-- V2.
theorem test_rngSeed : (after (exec (.rngSeed 0#64) State.reset)).rng = 0x8B97815F8AA18089#64 := by decide +kernel
theorem test_rngSeed_pink :
    (after (exec (.rngSeed 0#64) State.reset)).pink.w = #v[10188, 1956, 495, 8847, 344] := by decide +kernel
-- V3, and V8: refused while unseeded.
theorem test_rngNext64 : answerOf (exec .rngNext64 seeded0) = some (0, 0x9DE6CF0F6D5A586E) := by decide +kernel
theorem test_rngNext64_unseeded : answerOf (exec .rngNext64 State.reset) = some (3, 0) := by decide +kernel
-- The high half of V3's draw (R115), and its top 24 bits 0x9DE6CF as k / 2^24 (R116), by hand.
theorem test_rngNext32 : answerOf (exec .rngNext32 seeded0) = some (0, 0x9DE6CF0F) := by decide +kernel
theorem test_rngNextF : answerOf (exec .rngNextF seeded0) = some (0, 0x3F1DE6CF) := by decide +kernel
-- R124's examples.
theorem test_pinkNextV : answerOf (exec .pinkNextV seeded0) = some (0, 13322) := by decide +kernel
theorem test_pinkNextF : answerOf (exec .pinkNextF seeded0) = some (0, 0x3E502800) := by decide +kernel
-- R131, R132's example, and R213's: a run in progress comes before a full accumulator.
theorem test_accClear : (after (exec .accClear (holding [0x3F000000#32]))).acc = [] := by decide +kernel
theorem test_accAppend : answerOf (exec (.accAppend 0x3F000000#32) State.reset) = some (0, 1) := by decide +kernel
theorem test_accAppend_playing : answerOf (exec (.accAppend 0#32) started) = some (3, 0) := by decide +kernel
-- R134's example.
theorem test_accSize : answerOf (exec .accSize (holding [0#32, 0#32, 0x3F000000#32])) = some (0, 3) := by
  decide +kernel
theorem test_accRead : answerOf (exec (.accRead 2#32) (holding [0#32, 0#32, 0x3F000000#32])) = some (0, 0x3F000000) := by
  decide +kernel
theorem test_accRead_range : (after (exec (.accRead 3#32) (holding [0#32, 0#32, 0#32]))).status.fatal = true := by
  decide +kernel
-- R135's example.
theorem test_accScale : (after (exec (.accScale 0x40000000#32) (holding [0x3F000000#32, 0xBE800000#32]))).acc =
    [0x3F800000#32, 0xBF000000#32] := by decide +kernel
-- R136's example.
theorem test_accPeakMean : answerOf (exec .accPeakMean (holding [0x3F000000#32, 0xBF800000#32, 0x3E800000#32])) =
    some (0, 0x3F1555553F800000) := by decide +kernel
-- R139's examples: ties away from zero, and the most negative PCM32.
theorem test_accReadPcm : answerOf (exec (.accReadPcm 2#8 0#32) (holding [0xBF000000#32])) = some (0, 0xC000) := by
  decide +kernel
theorem test_accReadPcm_end : answerOf (exec (.accReadPcm 4#8 0#32) (holding [0xBF800000#32])) = some (0, 0x80000001) := by
  decide +kernel
-- R140's example.
theorem test_accStream : answerOf (exec (.accStream 3#8) (holding [0x3F000000#32, 0xBF000000#32])) = some (0, 6) := by
  decide +kernel
theorem test_accStream_bytes :
    (after (exec (.accStream 3#8) (holding [0x3F000000#32, 0xBF000000#32]))).ports.stream.map
      (fun b => (b.byte.toNat, b.last)) =
      [(0x00, false), (0x00, false), (0x40, false), (0x00, false), (0x00, false), (0xC0, true)] := by decide +kernel
-- V30: `fperiod` from the parameters, `rng_state` after the 94 draws.
theorem test_synthStart : (after (exec .synthStart seeded0)).freq.fperiod = 0x40912B9AA307340E#64 := by decide +kernel
theorem test_synthStart_draws : (after (exec .synthStart seeded0)).rng = 0x590575254548E43B#64 := by decide +kernel
-- V34 line 4, and R171: nothing happens without a run.
theorem test_synthStep : answerOf (exec .synthStep started) = some (0, 0x13D4CCA70) := by decide +kernel
theorem test_synthStep_idle : answerOf (exec .synthStep State.reset) = some (0, 0) := by decide +kernel
-- P2 lines 6 and 7: no sample, and the run stopped by its envelope.
theorem test_synthRun : answerOf (exec .synthRun (after (exec .synthStart quiet))) = some (0, 0) := by decide +kernel
theorem test_synthRun_stops :
    (after (exec .synthRun (after (exec .synthStart quiet)))).status.stopCause = .envelope := by decide +kernel

/-! ## The step -/

theorem test_step_runs_the_placed_word :
    step (State.reset.withFetchWord 80 0x02000000000000000000) = exec .statusRead State.reset := by rfl
-- V12 line 3 and R213: an undefined word with `fatal` set returns E_FATAL.
theorem test_step_illegal :
    answerOf (step (State.reset.withFetchWord 80 0x06000000000000000000)) = some (1, 0) := by decide +kernel
theorem test_step_gated :
    answerOf (step ((flagged false false true 0b010000#6).withFetchWord 80 0xFF000000000000000000)) = some (6, 0) := by
  decide +kernel

/-! ## Parts of an iteration (V41, V43, V46, V48, V24) -/

theorem test_breaker : waveBreaker 0x3F400000#32 = 0xBF600000#32 := by decide +kernel
theorem test_triangle : waveTriangle 0x3F7D70A4#32 = 0xBCA3D700#32 := by decide +kernel
theorem test_lfsr_feedback : lfsrStep 0x0002#15 = 0x4001#15 := by decide +kernel
theorem test_decimate_towards_zero : decimate 0x40800000#32 0xBE99999A#32 = 0xBE800000#32 := by decide +kernel
theorem test_volume : volume 0x3D4CCCCD#32 0x3F000000#32 0x3E99999A#32 = 0x3C75C290#32 := by decide +kernel
theorem test_pcm_product_in_binary64 : pcm .pcm32 0x3F7FFFFF#32 = 0x7FFFFF7F#32 := by decide +kernel
theorem test_stage_length : stageLength 0x3ECCCCCD#32 = 16000#32 := by decide +kernel

/-! ## Witnesses: states and operands that meet the hypotheses of each statement -/

/-- The reset state with these ports. -/
def ported (x : PortSample) (stream : List StreamByte) (rsp : Option Response) : State :=
  { State.reset with ports := { input := [x], stream := stream, rsp := rsp } }

def idleSample : PortSample := { rst := false, command := none, rspReady := true, soReady := true }

def resetSample : PortSample := { rst := true, command := some 0#80, rspReady := false, soReady := false }

theorem witness_decodeInvertsEncode : (Instr.memRead 2#8 31#32).wellFormed = true := by decide

theorem witness_encodeInvertsDecode : decode 0x36040000000000000007#80 = .ok (.accReadPcm 4#8 7#32) := by rfl

theorem witness_stepRunsTheAcceptedCommand : ∃ (s : State) (x : PortSample) (rest : List PortSample) (w : CommandWord)
    (i : Instr), s.ports.input = x :: rest ∧ x.rst = false ∧ s.ports.stream = [] ∧ s.ports.rsp = none ∧
      x.command = some w ∧ decode w = .ok i :=
  ⟨ported (commandSample 0#80) [] none, commandSample 0#80, [], 0#80, .nop, rfl, rfl, rfl, rfl, rfl, rfl⟩

/-- A presented word that decodes to no command. -/
theorem witness_stepRunsTheAcceptedCommand_illegal : ∃ (s : State) (x : PortSample) (rest : List PortSample)
    (w : CommandWord) (e : DecodeError), s.ports.input = x :: rest ∧ x.rst = false ∧ s.ports.stream = [] ∧
      s.ports.rsp = none ∧ x.command = some w ∧ decode w = .error e :=
  ⟨ported (commandSample 0x06000000000000000000#80) [] none, commandSample 0x06000000000000000000#80, [], _, _, rfl, rfl,
    rfl, rfl, rfl, rfl⟩

theorem witness_outputsGoOutInOrder_idle : State.reset.ports.input = [] := rfl

theorem witness_outputsGoOutInOrder_stream : ∃ (s : State) (x : PortSample) (rest : List PortSample),
    s.ports.input = x :: rest ∧ x.rst = false ∧ s.ports.stream ≠ [] :=
  ⟨ported idleSample [⟨0x40#8, true⟩] (some ⟨0#4, 1#64⟩), idleSample, [], rfl, rfl, by decide⟩

theorem witness_outputsGoOutInOrder_response : ∃ (s : State) (x : PortSample) (rest : List PortSample),
    s.ports.input = x :: rest ∧ x.rst = false ∧ s.ports.stream = [] ∧ s.ports.rsp ≠ none :=
  ⟨ported idleSample [] (some ⟨0#4, 1#64⟩), idleSample, [], rfl, rfl, rfl, by decide⟩

theorem witness_outputsGoOutInOrder_nothing : ∃ (s : State) (x : PortSample) (rest : List PortSample),
    s.ports.input = x :: rest ∧ x.rst = false ∧ s.ports.stream = [] ∧ s.ports.rsp = none ∧ x.command = none :=
  ⟨ported idleSample [] none, idleSample, [], rfl, rfl, rfl, rfl, rfl⟩

theorem witness_errorsArePrecise : ∃ (w : CommandWord) (s t : State) (r : Response),
    execWord w s = .next t ∧ t.ports.rsp = some r ∧ r.err ≠ 0#4 :=
  ⟨0x33000000000000000000#80, State.reset, _, ⟨5#4, 0#64⟩, eq_next_after (by decide +kernel), by decide +kernel,
    by decide⟩

theorem witness_illegalWordsAreAnswered : ∃ (w : CommandWord) (s : State),
    wordWellFormed w = false ∧ s.status.fatal = true ∧ (opField w = 0x01#8 ∨ opField w = 0x02#8) :=
  ⟨0x02000000000000000001#80, flagged false false true 0b010000#6, by decide +kernel, rfl, by decide +kernel⟩

theorem witness_illegalWordsAreAnswered_gated : ∃ (w : CommandWord) (s : State),
    wordWellFormed w = false ∧ s.status.fatal = true ∧ opField w ≠ 0x01#8 ∧ opField w ≠ 0x02#8 :=
  ⟨0xFF000000000000000000#80, flagged false false true 0b010000#6, by decide +kernel, rfl, by decide +kernel,
    by decide +kernel⟩

theorem witness_fatalGate_closed : ∃ (w : CommandWord) (s : State),
    s.status.fatal = true ∧ opField w ≠ 0x01#8 ∧ opField w ≠ 0x02#8 :=
  ⟨0x03000000000000000000#80, flagged false false true 0b010000#6, rfl, by decide +kernel, by decide +kernel⟩

theorem witness_fatalGate_malformed : ∃ (w : CommandWord) (s : State),
    s.status.fatal = true ∧ (opField w = 0x01#8 ∨ opField w = 0x02#8) ∧ (idxField w ≠ 0#8 ∨ dataField w ≠ 0#64) :=
  ⟨0x01000000000000000001#80, flagged false false true 0b010000#6, rfl, by decide +kernel, by decide +kernel⟩

theorem witness_errorFlagsAreSticky : ∃ (w : CommandWord) (s t : State) (r : Response), execWord w s = .next t ∧
    decode w = .ok .nop ∧ s.status.errflags.getLsbD 1 = true ∧ t.ports.rsp = some r ∧ r.err = 0#4 :=
  ⟨0#80, flagged false false false 0b000010#6, _, ⟨0#4, 0#64⟩, eq_next_after (by decide +kernel), rfl, by decide,
    by decide +kernel, rfl⟩

theorem witness_errorFlagsAreSticky_clear : ∃ (w : CommandWord) (s t : State), execWord w s = .next t ∧
    decode w = .ok .errClear ∧ s.status.fatal = false :=
  ⟨0x03000000000000000000#80, flagged false false false 0b111111#6, _, eq_next_after (by decide +kernel), rfl, rfl⟩

theorem witness_errorFlagsAreSticky_reset : ∃ (w : CommandWord) (s t : State), execWord w s = .next t ∧
    decode w = .ok .reset :=
  ⟨0x01000000000000000000#80, flagged false false true 0b111111#6, _, eq_next_after (by decide +kernel), rfl⟩

theorem witness_errorFlagsAreSticky_rst : ∃ (s t : State) (x : PortSample) (rest : List PortSample),
    s.ports.input = x :: rest ∧ x.rst = true ∧ step s = .next t :=
  ⟨ported resetSample [] none, _, resetSample, [], rfl, rfl, eq_next_after (by decide +kernel)⟩

theorem witness_fatalIsSetByRangeErrorsOnly : ∃ (i : Instr) (s t : State) (r : Response), exec i s = .next t ∧
    t.ports.rsp = some r ∧ i ≠ .reset ∧ s.status.fatal = false ∧ r.err = 5#4 :=
  ⟨.accRead 0#32, State.reset, _, ⟨5#4, 0#64⟩, eq_next_after (by decide +kernel), by decide +kernel, by decide, rfl, rfl⟩

/-- At the boundary: the index is the number of samples. -/
theorem witness_outOfRangeReadIsFatal : ∃ (s : State) (format : BitVec 8) (index : Word32), s.status.fatal = false ∧
    s.acc.length ≤ index.toNat ∧ format.toNat ≤ 4 :=
  ⟨holding [0#32, 0#32, 0#32], 4#8, 3#32, rfl, by decide, by decide⟩

theorem witness_stateChecksRefuse_playing : ∃ (s : State) (number : BitVec 8) (value : Word32),
    s.status.fatal = false ∧ s.status.playing = true ∧ number.toNat < 28 ∧ legalParameter number.toNat value = true :=
  ⟨started, 27#8, 0x3F800000#32, rfl, rfl, by decide, by decide +kernel⟩

theorem witness_stateChecksRefuse_unseeded : ∃ s : State, s.status.fatal = false ∧ s.status.seeded = false :=
  ⟨State.reset, rfl, rfl⟩

theorem witness_nopAnswersZero : ∃ s : State, s.status.fatal = false ∧ s.status.playing = true := ⟨started, rfl, rfl⟩

theorem witness_nopAnswersZero_gated : ∃ s : State, s.status.fatal = true :=
  ⟨flagged false false true 0b010000#6, rfl⟩

theorem witness_nopAnswersZero_malformed : ∃ (w : CommandWord) (s : State), opField w = 0#8 ∧ w ≠ 0#80 ∧
    s.status.fatal = false :=
  ⟨1#80, State.reset, by decide +kernel, by decide, rfl⟩

theorem witness_hardResetsComplete_rst : ∃ (s : State) (x : PortSample) (rest : List PortSample),
    s.ports.input = x :: rest ∧ x.rst = true :=
  ⟨ported resetSample [⟨0x40#8, true⟩] (some ⟨0#4, 1#64⟩), resetSample, [], rfl, rfl⟩

theorem witness_errClear : ∃ s : State, s.status.fatal = false ∧ s.status.errflags = 0b111111#6 :=
  ⟨flagged false false false 0b111111#6, rfl, rfl⟩

/-- The last state number, and the first beyond it. -/
theorem witness_stateReadTable : ∃ (s : State) (number beyond : BitVec 8), s.status.fatal = false ∧
    number.toNat = 0x2A ∧ 0x2A < beyond.toNat :=
  ⟨started, 0x2A#8, 0x2B#8, rfl, by decide, by decide⟩

/-- The last index of each space, and the first indices and the first code beyond. -/
theorem witness_memRead : ∃ (s : State) (ring bank ring' bank' : Word32) (code : BitVec 8), s.status.fatal = false ∧
    ring.toNat < 1024 ∧ bank.toNat < 32 ∧ 1024 ≤ ring'.toNat ∧ 32 ≤ bank'.toNat ∧ 2 < code.toNat :=
  ⟨State.reset, 1023#32, 31#32, 1024#32, 32#32, 3#8, rfl, by decide, by decide, by decide, by decide, by decide⟩

theorem witness_paramWrite_number : ∃ (s : State) (number : BitVec 8), s.status.fatal = false ∧ 28 ≤ number.toNat :=
  ⟨State.reset, 28#8, rfl, by decide⟩

theorem witness_paramWrite_illegal : ∃ (s : State) (number : BitVec 8) (v : Word32), s.status.fatal = false ∧
    number.toNat < 28 ∧ legalParameter number.toNat v = false :=
  ⟨State.reset, 27#8, 0x3F800001#32, rfl, by decide, by decide +kernel⟩

theorem witness_paramWrite_playing : ∃ (s : State) (number : BitVec 8) (v : Word32), s.status.fatal = false ∧
    number.toNat < 28 ∧ legalParameter number.toNat v = true ∧ s.status.playing = true :=
  ⟨started, 6#8, 0xBF800000#32, rfl, by decide, by decide +kernel, rfl⟩

theorem witness_paramWrite : ∃ (s : State) (number : BitVec 8) (v : Word32), s.status.fatal = false ∧
    number.toNat < 28 ∧ legalParameter number.toNat v = true ∧ s.status.playing = false :=
  ⟨State.reset, 24#8, 0x41C00000#32, rfl, by decide, by decide +kernel, rfl⟩

theorem witness_paramRead : ∃ (s : State) (number beyond : BitVec 8), s.status.fatal = false ∧ number.toNat < 28 ∧
    28 ≤ beyond.toNat :=
  ⟨State.reset, 27#8, 28#8, rfl, by decide, by decide⟩

theorem witness_parametersChange : ∃ (i : Instr) (s t : State), exec i s = .next t ∧ i ≠ .reset ∧
    t.params ≠ s.params :=
  ⟨.paramWrite 5#8 0x3F000000#32, State.reset, _, eq_next_after (by decide +kernel), by decide, by decide +kernel⟩

theorem witness_next64 : seeded0.rng ≠ 0#64 := by decide

theorem witness_next64_stages : ∃ x1 x2 x3 : Word64, x1 = seeded0.rng ^^^ (seeded0.rng >>> 12) ∧
    x2 = x1 ^^^ (x1 <<< 25) ∧ x3 = x2 ^^^ (x2 >>> 27) := ⟨_, _, _, rfl, rfl, rfl⟩

/-- The first, the last and the integral parameter numbers, at the ends of their ranges. -/
theorem witness_legalParameter : [(0, 8#32), (24, 0x41C00000#32), (6, 0xBF800000#32), (27, 0x3F800000#32)].all
    (fun x => decide (x.1 < 28) && legalParameter x.1 x.2) = true := by decide +kernel

/-- Idle and not fatal: the premises of RNG_SEED, ACC_CLEAR, ACC_APPEND below the cap and ACC_SCALE. -/
theorem witness_idle : State.reset.status.fatal = false ∧ State.reset.status.playing = false ∧
    State.reset.acc.length < 1048576 := ⟨rfl, rfl, by decide⟩

theorem witness_rngSeed : ∃ seed r : Word64, r = 0x9E3779B97F4A7C15#64 ^^^ seed := ⟨0#64, _, rfl⟩

/-- Seeded, idle and not fatal: the premises of the draw commands, with the sub-generators in range. -/
theorem witness_draws : seeded0.status.fatal = false ∧ seeded0.status.seeded = true ∧
    seeded0.status.playing = false ∧ ∀ i : Fin 5, seeded0.pink.w[i].toNat < 13107 := ⟨rfl, rfl, rfl, by decide⟩

theorem witness_degenerate : State.reset.rng = 0#64 ∧ State.reset.pink.w = #v[0#32, 0#32, 0#32, 0#32, 0#32] :=
  ⟨rfl, rfl⟩

theorem witness_onlySeedingReseeds : ∃ (i : Instr) (s t : State) (r : Response), exec i s = .next t ∧
    t.ports.rsp = some r ∧ i ≠ .reset ∧ (∀ seed, i ≠ .rngSeed seed) ∧ r.err = 0#4 ∧ t.rng ≠ s.rng :=
  ⟨.rngNext64, seeded0, _, ⟨0#4, 0x9DE6CF0F6D5A586E#64⟩, eq_next_after (by decide +kernel), by decide +kernel, by decide,
    (fun _ h => by cases h), rfl, by decide +kernel⟩

theorem witness_onlySeedingReseeds_refused : ∃ (i : Instr) (s t : State) (r : Response), exec i s = .next t ∧
    t.ports.rsp = some r ∧ i ≠ .reset ∧ (∀ seed, i ≠ .rngSeed seed) ∧ r.err ≠ 0#4 :=
  ⟨.rngNext64, State.reset, _, ⟨3#4, 0#64⟩, eq_next_after (by decide +kernel), by decide +kernel, by decide,
    (fun _ h => by cases h), by decide⟩

/-- An iteration in which white noise wraps: the period 8.0 is floored to, and the phase starts at 0, so the eighth
sub-sample wraps and draws 32 times. -/
theorem witness_onlySeedingReseeds_wrap :
    (after (exec .synthStep (noisy 3#32))).rng = xorshift^[32] (noisy 3#32).rng ∧
    wrapDraws ((noisy 3#32).p 0) = 32 := by decide +kernel

theorem witness_whiteBank : ∃ index k : Nat, Memory.wf 32 seeded0.nwhite = true ∧ index < 32 ∧
    k = (draw32 seeded0.rng index).toNat / 2 ^ 8 := ⟨31, _, rfl, by decide, rfl⟩

/-- The last word of the pink bank, with the sub-generators in range. -/
theorem witness_pinkBank : ∃ index n : Nat, Memory.wf 32 seeded0.npink = true ∧
    (∀ i : Fin 5, seeded0.pink.w[i].toNat < 13107) ∧ index < 32 ∧
    n = (pinkNextValue ((fun u => (pinkNextValue u).2)^[index] seeded0)).1.toNat :=
  ⟨31, _, rfl, by decide, by decide, rfl⟩

theorem witness_accAppend_full : ∃ s : State, s.status.fatal = false ∧ s.status.playing = false ∧
    s.acc.length = 1048576 :=
  ⟨holding (List.replicate 1048576 0#32), rfl, rfl, List.length_replicate⟩

theorem witness_accReads : ∃ (s : State) (format beyond : BitVec 8) (f : SampleFormat) (index : Word32),
    s.status.fatal = false ∧ index.toNat < s.acc.length ∧ SampleFormat.ofCode format = some f ∧ 4 < beyond.toNat :=
  ⟨holding [0#32, 0#32, 0#32], 4#8, 5#8, .pcm32, 2#32, rfl, by decide, rfl, by decide⟩

theorem witness_accScale : ∃ (s : State) (k : Nat) (v : F32), s.status.fatal = false ∧ s.status.playing = false ∧
    s.acc[k]? = some v := ⟨holding [0x3F000000#32], 0, 0x3F000000#32, rfl, rfl, rfl⟩

theorem witness_accPeakMean : ∃ s : State, s.status.fatal = false ∧ s.acc ≠ [] :=
  ⟨holding [0x7FC00000#32], rfl, by decide⟩

theorem witness_accPeakMean_empty : ∃ s : State, s.status.fatal = false ∧ s.acc = [] := ⟨State.reset, rfl, rfl⟩

theorem witness_pcm : (SampleFormat.pcm24, 24, 8388607) ∈ [(SampleFormat.pcm8, 8, 127), (.pcm16, 16, 32767),
    (.pcm24, 24, 8388607), (.pcm32, 32, 2147483647)] ∧ isNaN32 0x7FC00000#32 = true := by decide +kernel

/-- At and beyond both ends: 1.0 and 2.0, -1.0 and -3.0. -/
theorem witness_pcm_ends :
    [0x3F800000#32, 0x40000000#32].all (fun v => le64 (nat64 127) (mul64 (widen v) (nat64 127))) = true ∧
    [0xBF800000#32, 0xC0400000#32].all (fun v => le64 (mul64 (widen v) (nat64 127)) (neg64 (nat64 127))) = true := by
  decide +kernel

/-- Between the ends, a tie: 0.5 and -0.5 times 127 are 63.5 and -63.5, and become 64 and -64 (R138). -/
theorem witness_pcm_tie : ∃ x y : F64, x = mul64 (widen 0x3F000000#32) (nat64 127) ∧
    y = mul64 (widen 0xBF000000#32) (nat64 127) ∧ isNaN32 0x3F000000#32 = false ∧ le64 (nat64 127) x = false ∧
    le64 x (neg64 (nat64 127)) = false ∧ le64 y (neg64 (nat64 127)) = false ∧
    binary64.unpack x.toNat = .fin false (127 * 2 ^ 1073) ∧ binary64.unpack y.toNat = .fin true (127 * 2 ^ 1073) ∧
    pcm .pcm8 0x3F000000#32 = 0x40#32 ∧ pcm .pcm8 0xBF000000#32 = 0xC0#32 :=
  ⟨_, _, rfl, rfl, by decide +kernel, by decide +kernel, by decide +kernel, by decide +kernel, by decide +kernel,
    by decide +kernel, by decide +kernel, by decide +kernel⟩

theorem witness_accStream : ∃ (s : State) (format beyond : BitVec 8) (f : SampleFormat) (b n k : Nat) (v : F32),
    s.status.fatal = false ∧ 4 < beyond.toNat ∧ (f, format, b) ∈ [(SampleFormat.f32, 0#8, 4), (.pcm8, 1#8, 1),
      (.pcm16, 2#8, 2), (.pcm24, 3#8, 3), (.pcm32, 4#8, 4)] ∧ s.acc[n]? = some v ∧ k < b :=
  ⟨holding [0#32, 0x3F000000#32], 3#8, 5#8, .pcm24, 3, 1, 2, 0x3F000000#32, rfl, by decide, by decide, rfl, by decide⟩

theorem witness_appendOnly : ∃ (i : Instr) (s t : State), exec i s = .next t ∧ i ≠ .accClear ∧ i ≠ .synthStart ∧
    i ≠ .reset ∧ ∀ f, i ≠ .accScale f :=
  ⟨.accAppend 0#32, State.reset, _, eq_next_after (by decide +kernel), by decide, by decide, by decide,
    by intro f h; cases h⟩

theorem witness_appendOnly_clear : ∃ s t : State, exec .accClear s = .next t ∧ t.acc.length < s.acc.length :=
  ⟨holding [0#32], _, eq_next_after (by decide +kernel), by decide +kernel⟩

theorem witness_synthStart : started.status.fatal = false ∧ started.status.seeded = true ∧
    started.status.playing = true := ⟨rfl, rfl, rfl⟩

/-- The ends of the range of an unsigned parameter, the zeros among them. -/
theorem witness_derivedCounts :
    [0#32, 0x80000000#32, 0x3F800000#32].all (fun x => le32 0#32 x && le32 x 0x3F800000#32) = true := by
  decide +kernel

/-- Boundaries of the truncations: 1.0 - 2^-24, -0.0, the last binary32 value below 2^31, and its negative. -/
theorem witness_truncations :
    binary32.unpack 0x3F7FFFFF = .fin false (0xFFFFFF * 2 ^ 125) ∧ binary32.unpack 0x80000000 = .fin true 0 ∧
    binary32.unpack 0x4EFFFFFF = .fin false (0xFFFFFF * 2 ^ 156) ∧ 0xFFFFFF * 2 ^ 156 < 2 ^ 31 * 2 ^ 149 ∧
    binary32.unpack 0xCEFFFFFF = .fin true (0xFFFFFF * 2 ^ 156) ∧
    binary64.unpack 0x41DFFFFFFFFFFFFF = .fin false ((2 ^ 53 - 1) * 2 ^ 1052) ∧
    (2 ^ 53 - 1) * 2 ^ 1052 < 2 ^ 31 * 2 ^ 1074 := by decide +kernel

/-- The arpeggio waits: no limit, and one iteration below the limit. -/
theorem witness_arpeggio_waiting : ∃ f g : FreqRegs, f.arpLimit = 0#32 ∧ g.arpLimit ≠ 0#32 ∧
    (g.arpTime + 1#32).toNat < g.arpLimit.toNat :=
  ⟨State.reset.freq, { State.reset.freq with arpLimit := 32#32, arpTime := 30#32 }, rfl, by decide, by decide⟩

theorem witness_arpeggio : ∃ f : FreqRegs, f.arpLimit ≠ 0#32 ∧ f.arpLimit.toNat ≤ (f.arpTime + 1#32).toNat :=
  ⟨{ State.reset.freq with arpLimit := 32#32, arpTime := 31#32 }, by decide, by decide⟩

theorem witness_repeat : ∃ s : State, s.rep.limit ≠ 0#32 ∧ s.rep.limit.toNat ≤ (s.rep.time + 1#32).toNat :=
  ⟨{ State.reset with rep := { time := 31#32, limit := 32#32 } }, by decide, by decide⟩

theorem witness_repeat_waiting : ∃ s : State, s.rep.limit ≠ 0#32 ∧ (s.rep.time + 1#32).toNat < s.rep.limit.toNat :=
  ⟨{ State.reset with rep := { time := 30#32, limit := 32#32 } }, by decide, by decide⟩

/-- `started` at the frequency limit: the period slides from 4.0, by a slide of 1.0, above a limit of 2.0. -/
def limited (floor : F32) : State :=
  { started with
    params := started.params.set 8 floor
    freq := { started.freq with
      fperiod := 0x4010000000000000#64, fmaxperiod := 0x4000000000000000#64, fslide := one64, fdslide := 0#64 } }

/-- Each case of the slide and of the vibrato; at the limit itself, 4.0 against 4.0, it is not passed. -/
theorem witness_controlSteps :
    [0#32, 0x3F800000#32].all (fun floor => lt64 (limited floor).freq.fmaxperiod
      (mul64 (limited floor).freq.fperiod (add64 (limited floor).freq.fslide (limited floor).freq.fdslide))) = true ∧
    lt32 0#32 ((limited 0#32).p 8) = false ∧ lt32 0#32 ((limited 0x3F800000#32).p 8) = true ∧
    lt64 0x4010000000000000#64 (mul64 0x4010000000000000#64 (add64 one64 0#64)) = false ∧
    lt32 0#32 started.vib.amp = false ∧ lt32 0#32 0x00000001#32 = true := by decide +kernel

/-- The boundary: the time of the stage has reached its duration. -/
theorem witness_stageAdvance : ∃ e : EnvRegs, (advanceStages e).stage = .decay ∧ e.stage = .attack ∧
    (advanceStages e).stage ≠ e.stage :=
  ⟨{ State.reset.env with time := 10#32, len0 := 10#32, len1 := 0#32, len2 := 1#32 }, by decide, rfl, by decide⟩

theorem witness_stageAdvance_attack : ∃ e : EnvRegs, (advanceStages e).stage = .attack :=
  ⟨{ State.reset.env with time := 9#32, len0 := 10#32 }, by decide⟩

theorem witness_stageAdvance_sustain : ∃ e : EnvRegs, (advanceStages e).stage = .sustain :=
  ⟨{ State.reset.env with len1 := 1#32 }, by decide⟩

/-- Each clause at its boundary: the time one below the duration, and at it. -/
theorem witness_stageAdvance_kept : ∀ stage : EnvStage, stage ≠ .stopped → ∃ e : EnvRegs, e.stage = stage ∧
    e.time.toNat < e.len0.toNat ∧ e.time.toNat < e.len1.toNat ∧ e.time.toNat < e.len2.toNat ∧ e.time.toNat + 1 = 10 :=
  fun stage _ => ⟨{ stage := stage, time := 9#32, len0 := 10#32, len1 := 10#32, len2 := 10#32, vol := 0#32 }, rfl,
    by dsimp only; decide, by dsimp only; decide, by dsimp only; decide, by dsimp only; decide⟩

theorem witness_stageAdvance_left : ∀ stage : EnvStage, stage ≠ .stopped → ∃ e : EnvRegs, e.stage = stage ∧
    e.len0.toNat ≤ e.time.toNat ∧ e.len1.toNat ≤ e.time.toNat ∧ e.len2.toNat ≤ e.time.toNat ∧ e.len1 ≠ 0#32 :=
  fun stage _ => ⟨{ stage := stage, time := 10#32, len0 := 10#32, len1 := 10#32, len2 := 10#32, vol := 0#32 }, rfl,
    by dsimp only; decide, by dsimp only; decide, by dsimp only; decide, by dsimp only; decide⟩

theorem witness_stageAdvance_stopped : ∃ e : EnvRegs, e.stage = .stopped :=
  ⟨{ State.reset.env with stage := .stopped }, rfl⟩

theorem witness_sampleCap : ∃ s : State, s.status.fatal = false ∧ s.status.playing = true ∧ s.acc.length = 1048576 :=
  ⟨{ started with acc := List.replicate 1048576 0#32 }, rfl, rfl, List.length_replicate⟩

theorem witness_synthStep_appends : started.status.fatal = false ∧ started.status.playing = true ∧
    (after (exec .synthStep started)).status.playing = true := ⟨rfl, rfl, by decide +kernel⟩

/-- The run that ends instead: no duration, so its first iteration is in Stopped. -/
theorem witness_synthStep_ends : ∃ s : State, s.status.fatal = false ∧ s.status.playing = true ∧
    (after (exec .synthStep s)).status.playing = false ∧ (after (exec .synthStep s)).acc = s.acc :=
  ⟨after (exec .synthStart quiet), by decide +kernel, by decide +kernel, by decide +kernel, by decide +kernel⟩

/-- Every wave code of the waveform clause, the first and the last among them. -/
theorem witness_synthStep_waves : ∀ wave : Fin 9, ∃ (u : State) (fp : F32) (index : Nat),
    fp = narrow (div64 u.phase u.freq.period) ∧
    index = min 31 (truncU64 (div64 (mul64 u.phase 0x4040000000000000#64) u.freq.period)).toNat ∧
    u.p 0 = BitVec.ofNat 32 wave :=
  fun wave => ⟨{ State.reset with params := resetParams.set 0 (BitVec.ofNat 32 wave) }, _, _, rfl, rfl,
    by revert wave; decide⟩

/-- The filter clause on both sides of its branch: the cutoff 1.0, and a cutoff below it. -/
theorem witness_synthStep_filters : ∀ cutoff ∈ [0x3F800000#32, 0x3F000000#32],
    ∃ (x y w d p h : F32) (g : FilterRegs), y = mul32 g.fltw g.fltwD ∧
    w = (if lt32 y 0#32 then 0#32 else if lt32 0x3DCCCCCD#32 y then 0x3DCCCCCD#32 else y) ∧
    (if eq32 cutoff 0x3F800000#32 then d = 0#32 ∧ p = add32 x d
      else ∃ d', d' = add32 g.fltdp (mul32 (sub32 x g.fltp) w) ∧ d = sub32 d' (mul32 d' g.fltdmp) ∧
        p = add32 g.fltp d) ∧ h = add32 g.fltphp (sub32 p g.fltp) := by
  intro cutoff _
  by_cases h : eq32 cutoff 0x3F800000#32 = true
  · exact ⟨0x3F000000#32, _, _, 0#32, _, _, State.reset.flt, rfl, rfl, by rw [if_pos h]; exact ⟨rfl, rfl⟩, rfl⟩
  · exact ⟨0x3F000000#32, _, _, _, _, _, State.reset.flt, rfl, rfl, by rw [if_neg h]; exact ⟨_, rfl, rfl, rfl⟩, rfl⟩

/-- The decimation clause at the ends of its range, bits 0 and 24 and the depth -0.0. -/
theorem witness_synthStep_decimation :
    binary32.unpack 0x00000000 = .fin false (0 * 2 ^ 149) ∧ binary32.unpack 0x80000000 = .fin true (0 * 2 ^ 149) ∧
    binary32.unpack 0x41C00000 = .fin false (24 * 2 ^ 149) ∧ 0x4B800000 = 0x3F800000 + 24 * 2 ^ 23 := by decide +kernel

/-- The outcomes below the cap, in their order: at the frequency limit the run ends with cause 2 where `P[8]` is 1.0 and
goes on where it is 0; with no duration it ends with cause 1 (R164, R167). The cap is `witness_sampleCap`. -/
theorem witness_synthStep_outcomes :
    [limited 0x3F800000#32, limited 0#32, after (exec .synthStart quiet)].map
      (fun s => (after (exec .synthStep s)).status.stopCause) = [.frequencyLimit, .running, .envelope] := by
  decide +kernel

/-- One iteration of the one-bit waveform with a wrap: `ipp` is 8, `env_time` 1 and the LFSR has stepped (R183). -/
theorem witness_synthStep_wraps :
    (fun t : State => (t.pha.ipp, t.env.time, t.lfsr)) (after (exec .synthStep { noisy 8#32 with lfsr := 1#15 })) =
      (8#10, 1#32, 0x4000#15) := by decide +kernel

theorem witness_synthRun : started.status.fatal = false ∧ started.status.playing = true := ⟨rfl, rfl⟩

theorem witness_stepThenRun : ∃ s t : State, s.status.fatal = false ∧ exec .synthStep s = .next t ∧
    s.status.playing = true :=
  ⟨started, _, rfl, eq_next_after (by decide +kernel), rfl⟩

/-- A run of one sample. -/
theorem witness_runLength : ∃ (s t u : State) (n : Nat), s.status.fatal = false ∧ s.status.seeded = true ∧
    exec .synthStart s = .next t ∧ t.rep.limit = 0#32 ∧ exec .synthRun t = .next u ∧
    u.status.stopCause ≠ .frequencyLimit ∧ n = t.env.len0.toNat + t.env.len1.toNat + t.env.len2.toNat ∧
    u.acc.length = 1 :=
  ⟨brief, after (exec .synthStart brief), after (exec .synthRun (after (exec .synthStart brief))), _, rfl, rfl,
    eq_next_after (by decide +kernel), by decide +kernel, eq_next_after (by decide +kernel), by decide +kernel, rfl,
    by decide +kernel⟩

/-- The boundary: the period 8.0 and a phase above it. -/
theorem witness_phase : ∃ s : State, isFinite64 s.freq.period = true ∧ le64 0x4020000000000000#64 s.freq.period = true ∧
    isFinite64 s.phase = true ∧ le64 0#64 s.phase = true :=
  ⟨{ State.reset with
      phase := 0x4034000000000000#64, freq := { State.reset.freq with period := 0x4020000000000000#64 } },
    by decide +kernel, by decide +kernel, by decide +kernel, by decide +kernel⟩

theorem witness_lfsr : ∃ s : State, s.p 0 = 8#32 := ⟨{ State.reset with params := resetParams.set 0 8#32 }, by decide⟩

theorem witness_phaser : ∃ (s t : State) (x y : F32), Memory.wf 1024 s.phaser = true ∧ phaserTapSample x s = (y, t) :=
  ⟨{ State.reset with phaser := [(1023, 0x3F000000#32)], pha := { State.reset.pha with iphase := 1#10 } }, _,
    0x3F800000#32, _, by decide, rfl⟩

theorem witness_clip : lt32 0x3F800000#32 0x3F800001#32 = true ∧ lt32 0xBF800001#32 0xBF800000#32 = true ∧
    lt32 0x3F800000#32 0x3F800000#32 = false ∧ lt32 0xBF800000#32 0xBF800000#32 = false ∧
    isNaN32 0x7FC00000#32 = true := by decide +kernel

theorem witness_appendedSamples : ∃ (s t : State), exec .synthStep s = .next t ∧ t.acc.drop s.acc.length ≠ [] :=
  ⟨started, _, eq_next_after (by decide +kernel), by decide +kernel⟩

theorem quiet_legal : ∀ n : Fin 28, legalParameter n (quiet.p n) = true := by decide +kernel

theorem quiet_fatalFlag : quiet.status.fatal = quiet.status.errflags.getLsbD 4 := by decide

theorem quiet_pinkBound : ∀ i : Fin 5, quiet.pink.w[i] < pinkModulus := by decide +kernel

/-- The seeded state with no duration satisfies the invariant, whatever its registers and samples hold. -/
theorem quiet_inv (samples : List F32) (h : samples.length ≤ Config.sampleCap) (phase : F64) :
    State.Inv { quiet with acc := samples, phase := phase, ports := (quiet.withFetchWord 80 0).ports } where
  paramsLegal := quiet_legal
  playingSeeded := fun _ => rfl
  unseededZero := fun h => by cases h
  fatalFlag := quiet_fatalFlag
  playingCause := fun _ => rfl
  playingStage := fun h => by cases h
  phaserWf := rfl
  nwhiteWf := rfl
  npinkWf := rfl
  pinkBound := quiet_pinkBound
  accBound := h
  streamResponse := fun h => absurd rfl h

theorem witness_stepKeepsTheInvariant : ∃ s t : State, s.Inv ∧ step s = .next t :=
  ⟨_, _, quiet_inv [] (Nat.zero_le _) 0#64, eq_next_after (by decide +kernel)⟩

/-- Two states that differ in the samples and the phase. -/
theorem witness_runDepends : ∃ s s' t t' u u' : State, s.Inv ∧ s'.Inv ∧ s ≠ s' ∧ s.params = s'.params ∧ s.rng = s'.rng ∧
    s.pink = s'.pink ∧ s.status.fatal = false ∧ s'.status.fatal = false ∧ s.status.seeded = true ∧
    s'.status.seeded = true ∧ exec .synthStart s = .next t ∧ exec .synthStart s' = .next t' ∧
    exec .synthRun t = .next u ∧ exec .synthRun t' = .next u' :=
  ⟨_, _, _, _, _, _, quiet_inv [] (Nat.zero_le _) 0#64, quiet_inv [0#32] (by decide) one64, by decide, rfl, rfl, rfl, rfl,
    rfl, rfl, rfl, eq_next_after (by decide +kernel), eq_next_after (by decide +kernel),
    eq_next_after (by decide +kernel), eq_next_after (by decide +kernel)⟩

end Sys2Proof.Tests
end

section
/-!
The reset state and the invariant (10_state.md R21 to R34): what hard reset leaves, and that every step keeps
`State.Inv`. Each operation of the machine has one lemma that says it keeps the invariant; a command is settled by
the lemmas of its checks and of the operation it ends with.
-/

namespace Sys2Proof.Invariant

open Sys2Proof Sys2Proof.Machine Sys2Proof.Laws

/-! ## The reset state (10_state.md R34) -/

theorem reset_params : ∀ n : Fin 28, State.reset.p n =
    if n = 2 ∨ n = 5 then 0x3E99999A#32 else if n = 3 then 0x3ECCCCCD#32 else if n = 16 then 0x3F800000#32
    else if n = 26 then 0x3F000000#32 else if n = 27 then 0x3D4CCCCD#32 else 0#32 := by decide

theorem reset_paramsLegal : ∀ n : Fin 28, legalParameter n (State.reset.p n) = true := by decide +kernel

theorem reset_pinkBound : ∀ i : Fin 5, State.reset.pink.w[i] < pinkModulus := by decide

/-- Every register of 10_state.md R26 reads zero: the state numbers are 0 to 0x2A, and there is no other. -/
theorem reset_stateRegister (number : BitVec 8) (h : number.toNat ≤ 0x2A) :
    stateRegister number State.reset = some 0#64 := by
  unfold stateRegister
  generalize number.toNat = k at h ⊢
  interval_cases k <;> rfl

theorem reset_memRead (space : Space) (index : Nat) : memRead space index State.reset = 0#32 := by
  cases space <;> exact read_nil index

/-- Settles O16: each clause is a fact about one group of the fixed reset state. -/
theorem resetLeaves : Obligations.ResetLeaves :=
  ⟨reset_params, rfl, rfl, rfl, rfl, rfl, reset_stateRegister, fun space index _ => reset_memRead space index, rfl, rfl⟩

/-- Settles O58. -/
theorem resetSatisfiesTheInvariant : Obligations.ResetSatisfiesTheInvariant where
  paramsLegal := reset_paramsLegal
  playingSeeded := nofun
  unseededZero := fun _ => rfl
  fatalFlag := rfl
  playingCause := nofun
  playingStage := nofun
  phaserWf := wf_reset .phaser
  nwhiteWf := wf_reset .nwhite
  npinkWf := wf_reset .npink
  pinkBound := reset_pinkBound
  accBound := Nat.zero_le _
  streamResponse := fun h => absurd rfl h

/-! ## Resets, responses and errors -/

theorem inv_hardReset (s : State) : (hardReset s).Inv := { resetSatisfiesTheInvariant with }

theorem inv_present {s : State} (r : Response) (h : s.Inv) : (s.present r).Inv :=
  { h with streamResponse := fun _ => rfl }

theorem recordError_fatalFlag {e : ErrorCode} {t : Status} (h : t.fatal = t.errflags.getLsbD 4) :
    (recordError e t).fatal = (recordError e t).errflags.getLsbD 4 := by
  cases e <;> simp [recordError, ErrorCode.flag, ErrorCode.code, h]

theorem inv_errorState {s : State} (e : ErrorCode) (h : s.Inv) : (errorState e s).Inv :=
  { h with
    fatalFlag := recordError_fatalFlag h.fatalFlag
    streamResponse := fun _ => rfl }

/-! ## Draws: the invariant of a state with a seed -/

/-- The invariant of a state with a seed, which is what a draw needs: it may leave any `rng_state`. -/
structure SeededInv (s : State) : Prop extends State.Inv s where
  seeded : s.status.seeded = true

theorem SeededInv.set_noise {s : State} (h : SeededInv s) (rng : Word64) {pink : PinkRegs}
    (hp : ∀ i : Fin 5, pink.w[i] < pinkModulus) : SeededInv { s with rng := rng, pink := pink } :=
  { h with
    unseededZero := fun hs => absurd hs (by simp [h.seeded])
    pinkBound := hp }

theorem mod_pinkModulus_lt (x : Word32) : x % pinkModulus < pinkModulus := BitVec.umod_lt x (by decide)

theorem redrawPink_bound {s : State} (h : ∀ i : Fin 5, s.pink.w[i] < pinkModulus) (i j : Fin 5) :
    (redrawPink s i).pink.w[j] < pinkModulus := by
  simp only [redrawPink, Fin.getElem_fin, Vector.getElem_set]
  split
  · exact mod_pinkModulus_lt _
  · exact h j

theorem SeededInv.next64 {s : State} (h : SeededInv s) : SeededInv (next64 s).2 := h.set_noise _ h.pinkBound

theorem SeededInv.redrawPink {s : State} (h : SeededInv s) (i : Fin 5) : SeededInv (redrawPink s i) := by
  rw [redrawPink_state]
  exact h.set_noise _ (redrawPink_bound h.pinkBound i)

theorem SeededInv.pinkConstruct {s : State} (h : SeededInv s) : SeededInv (pinkConstruct s) :=
  List.foldlRecOn _ _ (h.set_noise s.rng (pink := { s.pink with key := 0#5 }) h.pinkBound)
    fun _ ht i _ => ht.redrawPink i

theorem SeededInv.pinkTerm {r : Word32 × State} (h : SeededInv r.2) (diff : BitVec 5) (i : Fin 5) :
    SeededInv (pinkTerm diff r i).2 := by
  simp only [Machine.pinkTerm]
  split
  · exact h.redrawPink i
  · exact h

theorem SeededInv.pinkNextValue {s : State} (h : SeededInv s) : SeededInv (pinkNextValue s).2 :=
  List.foldlRecOn (motive := fun r : Word32 × State => SeededInv r.2) _ _
    (h.set_noise s.rng (pink := { s.pink with key := s.pink.key + 1#5 }) h.pinkBound)
    fun _ ht i _ => ht.pinkTerm _ i

theorem SeededInv.pinkNextFloat {s : State} (h : SeededInv s) : SeededInv (Machine.pinkNextFloat s).2 := by
  rw [Machine.pinkNextFloat]
  exact h.pinkNextValue

/-! ## Noise banks and the ring -/

theorem SeededInv.memWrite {s : State} (h : SeededInv s) (space : Space) {i : Nat} (v : Word32) (hi : i < space.length) :
    SeededInv (memWrite space i v s) := by
  cases space
  · exact { h with phaserWf := wf_write v h.phaserWf hi }
  · exact { h with nwhiteWf := wf_write v h.nwhiteWf hi }
  · exact { h with npinkWf := wf_write v h.npinkWf hi }

theorem SeededInv.refreshWhiteWord {s : State} (h : SeededInv s) {i : Nat} (hi : i < Config.noiseLen) :
    SeededInv (refreshWhiteWord s i) :=
  h.next64.memWrite .nwhite (bankWord (nextFloat s).1) hi

theorem SeededInv.refreshPinkWord {s : State} (h : SeededInv s) {i : Nat} (hi : i < Config.noiseLen) :
    SeededInv (refreshPinkWord s i) :=
  h.pinkNextFloat.memWrite .npink (bankWord (Machine.pinkNextFloat s).1) hi

theorem SeededInv.refreshWhite {s : State} (h : SeededInv s) : SeededInv (refreshWhite s) :=
  List.foldlRecOn _ _ h fun _ ht _ hi => ht.refreshWhiteWord (List.mem_range.mp hi)

theorem SeededInv.refreshPink {s : State} (h : SeededInv s) : SeededInv (refreshPink s) :=
  List.foldlRecOn _ _ h fun _ ht _ hi => ht.refreshPinkWord (List.mem_range.mp hi)

theorem SeededInv.wrapRefresh {s : State} (h : SeededInv s) : SeededInv (wrapRefresh s) := by
  unfold Machine.wrapRefresh
  split
  · exact h.refreshWhite
  · exact h.refreshPink
  · exact { h with }
  · exact h

theorem SeededInv.advancePhase {s : State} (h : SeededInv s) : SeededInv (advancePhase s) := by
  simp only [Machine.advancePhase]
  split
  · exact SeededInv.wrapRefresh { h with }
  · exact { h with }

theorem SeededInv.phaserTapSample {s : State} (h : SeededInv s) (x : F32) : SeededInv (phaserTapSample x s).2 :=
  { h.memWrite .phaser (i := s.pha.ipp.toNat) x s.pha.ipp.isLt with }

theorem SeededInv.subSample {r : F32 × State} (h : SeededInv r.2) : SeededInv (subSample r).2 := by
  have hfiltered (flt : FilterRegs) : SeededInv { Machine.advancePhase r.2 with flt := flt } := { h.advancePhase with }
  dsimp only [Machine.subSample]
  exact (hfiltered _).phaserTapSample _

theorem SeededInv.subSampleLoop (n : Nat) {r : F32 × State} (h : SeededInv r.2) : SeededInv (subSampleLoop n r).2 := by
  induction n generalizing r with
  | zero => exact h
  | succ n ih => exact ih h.subSample

/-! ## The iteration (44_synth_control.md R160) -/

/-- The invariant between two steps of an iteration: there is room for the sample it may append. -/
structure InRun (s : State) : Prop extends SeededInv s where
  room : s.acc.length < Config.sampleCap

theorem SeededInv.endRun {s : State} (h : SeededInv s) (c : StopCause) : SeededInv (endRun c s) :=
  { h with
    playingSeeded := nofun
    playingCause := nofun
    playingStage := nofun }

/-- The soft reset begins the envelope again, so it is in no Stopped stage. -/
theorem InRun.softReset {s : State} (h : InRun s) : InRun (softReset s) := by
  have hgroups (freq : FreqRegs) (env : EnvRegs) (henv : env.stage = .attack) :
      InRun { s with freq := freq, env := env } := { h with playingStage := fun _ => by simp [henv] }
  rw [Machine.softReset]
  exact hgroups _ _ (by rw [resetEnvelope])

theorem InRun.repeatStep {s : State} (h : InRun s) : InRun (repeatStep s) := by
  unfold Machine.repeatStep
  dsimp only
  split
  · exact InRun.softReset { h with }
  · exact { h with }

theorem InRun.arpeggioStep {s : State} (h : InRun s) : InRun (arpeggioStep s) := { h with }

theorem InRun.slideStep {s : State} (h : InRun s) : InRun (slideStep s) := by
  rw [slideStep_state]
  rcases slideStep_status s with hst | hst <;> rw [hst]
  · exact { h with }
  · exact { h.endRun .frequencyLimit, h with }

theorem InRun.vibratoStep {s : State} (h : InRun s) : InRun (vibratoStep s) := by
  rw [vibratoStep_state]
  exact { h with }

theorem InRun.rampStep {s : State} (h : InRun s) : InRun (rampStep s) := { h with }

/-- The first half of step 6 ends the run where the stage is Stopped, so no run is left in it (90_conflicts.md C4). -/
theorem InRun.stageStep {s : State} (h : InRun s) : InRun (stageStep s) := by
  simp only [Machine.stageStep]
  split
  · exact { h.endRun .envelope, h with playingStage := nofun }
  · next hstage => exact { h with playingStage := fun _ => hstage }

theorem envelopeVolume_stage (punch : F32) (e : EnvRegs) : (envelopeVolume punch e).stage = e.stage := by
  simp only [envelopeVolume]
  split <;> rfl

theorem InRun.volumeStep {s : State} (h : InRun s) : InRun (volumeStep s) :=
  { h with playingStage := fun hp => (envelopeVolume_stage _ s.env).trans_ne (h.playingStage hp) }

theorem InRun.phaserOffsetStep {s : State} (h : InRun s) : InRun (phaserOffsetStep s) := { h with }

theorem InRun.sampleStep {s : State} (h : InRun s) : SeededInv (sampleStep s) :=
  { h.subSampleLoop (r := (0#32, s)) Config.supersample with
    accBound := by
      rw [sampleStep_acc, List.length_append]
      exact h.room }

/-- A step that may end the run keeps the room, and what follows a step that did not end it keeps the invariant. -/
theorem InRun.unlessEnded {s : State} (h : InRun s) {rest : State → State}
    (hrest : ∀ t, InRun t → SeededInv (rest t)) : SeededInv (unlessEnded rest s) := by
  unfold Machine.unlessEnded
  split
  · exact hrest s h
  · exact h.toSeededInv

theorem SeededInv.iteration {s : State} (h : SeededInv s) : SeededInv (iteration s) := by
  unfold Machine.iteration
  split
  · exact h.endRun .sampleCap
  · next hroom =>
    have hrun : InRun s := { h with room := Nat.lt_of_not_le hroom }
    exact hrun.repeatStep.arpeggioStep.slideStep.unlessEnded fun _ ht =>
      ht.vibratoStep.rampStep.stageStep.unlessEnded fun _ hu => hu.volumeStep.phaserOffsetStep.sampleStep

theorem SeededInv.runLoop (n : Nat) {s : State} (h : SeededInv s) : SeededInv (runLoop n s) := by
  induction n generalizing s with
  | zero => exact h
  | succ n ih =>
    unfold Machine.runLoop
    split
    · exact ih h.iteration
    · exact h

/-- The loop of SYNTH_RUN; a run has a seed, and without a run nothing happens. -/
theorem inv_finishRun {s : State} (h : s.Inv) : (finishRun s).Inv := by
  unfold finishRun
  cases hp : s.status.playing with
  | false => rwa [runLoop_ended _ hp]
  | true => exact (SeededInv.runLoop _ { h with seeded := h.playingSeeded hp }).toInv

/-! ## The start of a run (44_synth_control.md R151, R152) -/

theorem SeededInv.resetPhaserAndNoise {s : State} (h : SeededInv s) : SeededInv (resetPhaserAndNoise s) := by
  have hcleared : SeededInv { s with pha := resetPhaser s.params, phaser := [] } := { h with phaserWf := wf_nil _ }
  exact { hcleared.refreshWhite.refreshPink with }

@[simp] theorem resetPhaserAndNoise_env (s : State) : (resetPhaserAndNoise s).env = s.env := by
  simp only [resetPhaserAndNoise]
  rw [refreshPink_state, refreshWhite_state]

theorem fullReset_stage (s : State) : (fullReset s).env.stage = .attack := by
  simp [fullReset, resetEnvelope]

theorem SeededInv.fullReset {s : State} (h : SeededInv s) : SeededInv (fullReset s) := by
  have hgroups : SeededInv { s with
      phase := 0#64, freq := resetFrequency s.params, env := resetEnvelope s.params, flt := resetFilters s.params,
      vib := resetVibrato s.params } := { h with playingStage := fun _ => nofun }
  exact { hgroups.resetPhaserAndNoise with }

theorem SeededInv.startRun {s : State} (h : SeededInv s) : SeededInv (startRun s) := by
  have hcleared : SeededInv { s with acc := [] } := { h with accBound := Nat.zero_le _ }
  have hfull := hcleared.fullReset
  exact { hfull with
    playingSeeded := fun _ => hfull.seeded
    playingCause := fun _ => rfl
    playingStage := fun _ => (fullReset_stage _).trans_ne nofun }

/-! ## Answers -/

/-- The state an answer goes on with, if it goes on, satisfies the invariant. -/
def AnswerInv (a : Answer) : Prop := ∀ t, a = .next t → t.Inv

theorem answerInv_next {s : State} (h : s.Inv) : AnswerInv (.next s) := by
  rintro _ ⟨⟩
  exact h

theorem answerInv_respond {s : State} (v : Word64) (h : s.Inv) : AnswerInv (respond v s) :=
  answerInv_next (inv_present _ h)

theorem answerInv_raise {s : State} (e : ErrorCode) (h : s.Inv) : AnswerInv (raise e s) :=
  answerInv_next (inv_errorState e h)

/-- A check keeps the invariant where what follows it does in a state that passes. -/
theorem answerInv_check {s : State} {e : ErrorCode} {bad : Bool} {rest : State → Answer} (h : s.Inv)
    (hrest : bad = false → AnswerInv (rest s)) : AnswerInv (check e bad s rest) := by
  cases bad with
  | true => exact answerInv_raise e h
  | false => exact hrest rfl

theorem answerInv_fatalGate {s : State} {rest : State → Answer} (h : s.Inv) (hrest : AnswerInv (rest s)) :
    AnswerInv (fatalGate s rest) :=
  answerInv_check h fun _ => hrest

theorem answerInv_idleCheck {s : State} {rest : State → Answer} (h : s.Inv) (hrest : AnswerInv (rest s)) :
    AnswerInv (idleCheck s rest) :=
  answerInv_check h fun _ => hrest

/-- Behind the seeded gate there is a seed. -/
theorem answerInv_seededGate {s : State} {rest : State → Answer} (h : s.Inv)
    (hrest : SeededInv s → AnswerInv (rest s)) : AnswerInv (seededGate s rest) :=
  answerInv_check h fun hs => hrest { h with seeded := by simpa using hs }

theorem answerInv_drawCommand {s : State} {draw : State → Word64 × State} (h : s.Inv)
    (hdraw : SeededInv s → SeededInv (draw s).2) : AnswerInv (drawCommand draw s) :=
  answerInv_fatalGate h <| answerInv_seededGate h fun hs => answerInv_idleCheck h <|
    answerInv_respond _ (hdraw hs).toInv

/-! ## System commands -/

theorem execNop_inv {s : State} (h : s.Inv) : AnswerInv (execNop s) :=
  answerInv_fatalGate h (answerInv_respond _ h)

theorem execReset_inv (s : State) : AnswerInv (execReset s) := answerInv_respond _ (inv_hardReset s)

/-- ERR_CLEAR keeps the `E_RANGE` flag, which is what `fatal` goes with. -/
theorem inv_clearErrors {s : State} (h : s.Inv) : State.Inv { s with status := clearErrors s.status } :=
  { h with fatalFlag := by simp [clearErrors, h.fatalFlag] }

theorem execErrClear_inv {s : State} (h : s.Inv) : AnswerInv (execErrClear s) :=
  answerInv_fatalGate h (answerInv_respond _ (inv_clearErrors h))

theorem execStateRead_inv {s : State} (number : BitVec 8) (h : s.Inv) : AnswerInv (execStateRead number s) := by
  refine answerInv_fatalGate h ?_
  split
  · exact answerInv_raise _ h
  · exact answerInv_respond _ h

theorem execMemRead_inv {s : State} (code : BitVec 8) (index : Word32) (h : s.Inv) :
    AnswerInv (execMemRead code index s) := by
  refine answerInv_fatalGate h ?_
  split
  · exact answerInv_raise _ h
  · exact answerInv_check h fun _ => answerInv_respond _ h

theorem illegalCommand_inv {s : State} (op : BitVec 8) (h : s.Inv) : AnswerInv (illegalCommand op s) := by
  unfold illegalCommand
  split <;> exact answerInv_raise _ h

/-! ## Parameter commands -/

theorem writeParameter_p (n m : Fin 28) (v : Word32) (s : State) :
    (writeParameter n v s).p m = if n = m then v else s.p m := by
  simp [State.p, writeParameter, Vector.getElem_set, Fin.ext_iff]

theorem inv_writeParameter {s : State} {n : Fin 28} {v : Word32} (h : s.Inv) (hv : legalParameter n v = true) :
    (writeParameter n v s).Inv :=
  { h with
    paramsLegal := fun m => by
      rw [writeParameter_p]
      split
      · next hnm => exact hnm ▸ hv
      · exact h.paramsLegal m }

theorem execParamWrite_inv {s : State} (number : BitVec 8) (value : Word32) (h : s.Inv) :
    AnswerInv (execParamWrite number value s) := by
  refine answerInv_fatalGate h ?_
  split
  · exact answerInv_raise _ h
  · exact answerInv_check h fun hlegal => answerInv_idleCheck h <|
      answerInv_respond _ (inv_writeParameter h (by simpa using hlegal))

theorem execParamRead_inv {s : State} (number : BitVec 8) (h : s.Inv) : AnswerInv (execParamRead number s) := by
  refine answerInv_fatalGate h ?_
  split
  · exact answerInv_raise _ h
  · exact answerInv_respond _ h

/-! ## Seeding -/

theorem SeededInv.seedRng {s : State} (seed : Word64) (h : s.Inv) : SeededInv (seedRng seed s) := by
  have hseeded : SeededInv { s with
      rng := Config.rngSeedXor ^^^ seed, status := { s.status with seeded := true } } :=
    { h with playingSeeded := fun _ => rfl, unseededZero := nofun, seeded := rfl }
  exact hseeded.pinkConstruct

theorem execRngSeed_inv {s : State} (seed : Word64) (h : s.Inv) : AnswerInv (execRngSeed seed s) :=
  answerInv_fatalGate h <| answerInv_idleCheck h <| answerInv_respond _ (SeededInv.seedRng seed h).toInv

/-! ## Accumulator commands -/

theorem inv_setAcc {s : State} {samples : List F32} (h : s.Inv) (hlen : samples.length ≤ Config.sampleCap) :
    State.Inv { s with acc := samples } :=
  { h with accBound := hlen }

theorem inv_accAppend {s : State} (v : F32) (h : s.Inv) (hroom : s.acc.length < Config.sampleCap) :
    (accAppend v s).Inv :=
  inv_setAcc h (by rwa [List.length_append])

theorem execAccClear_inv {s : State} (h : s.Inv) : AnswerInv (execAccClear s) :=
  answerInv_fatalGate h <| answerInv_idleCheck h <| answerInv_respond _ (inv_setAcc h (Nat.zero_le _))

theorem execAccAppend_inv {s : State} (sample : F32) (h : s.Inv) : AnswerInv (execAccAppend sample s) :=
  answerInv_fatalGate h <| answerInv_idleCheck h <| answerInv_check h fun hroom =>
    answerInv_respond _ (inv_accAppend sample h (Nat.lt_of_not_le (of_decide_eq_false hroom)))

theorem execAccSize_inv {s : State} (h : s.Inv) : AnswerInv (execAccSize s) :=
  answerInv_fatalGate h (answerInv_respond _ h)

theorem execAccRead_inv {s : State} (index : Word32) (h : s.Inv) : AnswerInv (execAccRead index s) := by
  refine answerInv_fatalGate h ?_
  split
  · exact answerInv_raise _ h
  · exact answerInv_respond _ h

theorem execAccScale_inv {s : State} (factor : F32) (h : s.Inv) : AnswerInv (execAccScale factor s) :=
  answerInv_fatalGate h <| answerInv_idleCheck h <|
    answerInv_respond _ (inv_setAcc h ((List.length_map _).trans_le h.accBound))

theorem execAccPeakMean_inv {s : State} (h : s.Inv) : AnswerInv (execAccPeakMean s) :=
  answerInv_fatalGate h (answerInv_respond _ h)

theorem execAccReadPcm_inv {s : State} (format : BitVec 8) (index : Word32) (h : s.Inv) :
    AnswerInv (execAccReadPcm format index s) := by
  refine answerInv_fatalGate h ?_
  split
  · exact answerInv_raise _ h
  · split
    · exact answerInv_raise _ h
    · exact answerInv_respond _ h

/-- ACC_STREAM leaves its bytes together with its response. -/
theorem execAccStream_inv {s : State} (format : BitVec 8) (h : s.Inv) : AnswerInv (execAccStream format s) := by
  refine answerInv_fatalGate h ?_
  split
  · exact answerInv_raise _ h
  · exact answerInv_next { h with streamResponse := fun _ => rfl }

/-! ## Synthesis commands -/

theorem execSynthStart_inv {s : State} (h : s.Inv) : AnswerInv (execSynthStart s) :=
  answerInv_fatalGate h <| answerInv_seededGate h fun hs => answerInv_respond _ hs.startRun.toInv

theorem execSynthStep_inv {s : State} (h : s.Inv) : AnswerInv (execSynthStep s) := by
  refine answerInv_fatalGate h ?_
  split
  · next hp => exact answerInv_respond _ (SeededInv.iteration { h with seeded := h.playingSeeded hp }).toInv
  · exact answerInv_respond _ h

theorem execSynthRun_inv {s : State} (h : s.Inv) : AnswerInv (execSynthRun s) :=
  answerInv_fatalGate h (answerInv_respond _ (inv_finishRun h))

/-! ## Every command, and every step -/

theorem exec_inv {s : State} (i : Instr) (h : s.Inv) : AnswerInv (exec i s) := by
  cases i with
  | nop => exact execNop_inv h
  | reset => exact execReset_inv s
  | statusRead => exact answerInv_respond _ h
  | errClear => exact execErrClear_inv h
  | stateRead number => exact execStateRead_inv number h
  | memRead space index => exact execMemRead_inv space index h
  | paramWrite number value => exact execParamWrite_inv number value h
  | paramRead number => exact execParamRead_inv number h
  | rngSeed seed => exact execRngSeed_inv seed h
  | rngNext64 => exact answerInv_drawCommand h fun hs => hs.next64
  | rngNext32 => exact answerInv_drawCommand h fun hs => hs.next64
  | rngNextF => exact answerInv_drawCommand h fun hs => hs.next64
  | pinkNextV => exact answerInv_drawCommand h fun hs => hs.pinkNextValue
  | pinkNextF => exact answerInv_drawCommand h fun hs => hs.pinkNextValue
  | accClear => exact execAccClear_inv h
  | accAppend sample => exact execAccAppend_inv sample h
  | accSize => exact execAccSize_inv h
  | accRead index => exact execAccRead_inv index h
  | accScale factor => exact execAccScale_inv factor h
  | accPeakMean => exact execAccPeakMean_inv h
  | accReadPcm format index => exact execAccReadPcm_inv format index h
  | accStream format => exact execAccStream_inv format h
  | synthStart => exact execSynthStart_inv h
  | synthStep => exact execSynthStep_inv h
  | synthRun => exact execSynthRun_inv h

theorem execWord_inv {s : State} (w : CommandWord) (h : s.Inv) : AnswerInv (execWord w s) := by
  unfold execWord
  split
  · exact exec_inv _ h
  · exact illegalCommand_inv _ h

/-- A transferred byte leaves the response waiting, which waits as long as there are bytes. -/
theorem inv_transferByte {s : State} (ready : Bool) (h : s.Inv) (hv : s.soValid = true) :
    (transferByte ready s).Inv := by
  have hstream : s.ports.stream ≠ [] := by simpa [State.soValid] using hv
  unfold transferByte
  split
  · exact { h with streamResponse := fun _ => h.streamResponse hstream }
  · exact h

/-- A response goes out only after the last byte. -/
theorem inv_transferResponse {s : State} (ready : Bool) (h : s.Inv) (hv : s.soValid = false) :
    (transferResponse ready s).Inv := by
  have hstream : s.ports.stream = [] := by simpa [State.soValid] using hv
  unfold transferResponse
  split
  · exact { h with streamResponse := fun hne => absurd hstream hne }
  · exact h

theorem sample_inv {s : State} (x : PortSample) (h : s.Inv) : AnswerInv (sample x s) := by
  unfold sample
  split
  · exact answerInv_next (inv_hardReset s)
  · split
    · next hv => exact answerInv_next (inv_transferByte _ h hv)
    · next hv =>
      split
      · exact answerInv_next (inv_transferResponse _ h (Bool.eq_false_iff.mpr hv))
      · split
        · exact execWord_inv _ h
        · exact answerInv_next h

/-- Settles O59: a step is a sample of the ports, and every case of a sample keeps the invariant. -/
theorem stepKeepsTheInvariant : Obligations.StepKeepsTheInvariant := by
  intro s t h hstep
  unfold step at hstep
  split at hstep
  · exact answerInv_next h t hstep
  · next x rest _ =>
    have hrest : State.Inv { s with ports := { s.ports with input := rest } } := { h with }
    exact sample_inv x hrest t hstep

end Sys2Proof.Invariant
end

section
/-!
Noninterference of a run (10_state.md R23). SYNTH_START overwrites every register and every word a run reads; the
words a noise bank held before are lost because a refresh writes all of them and two canonical memories with the same
words are equal. So two start states with the same parameters, `rng_state` and pink state give run states that differ
at most in the error flags and the ports, and the iteration neither reads nor writes those.
-/

namespace Sys2Proof.Noninterference

open Sys2Proof Sys2Proof.Machine Sys2Proof.Laws

/-! ## A memory all of whose words are written -/

theorem wfFrom_cons {length low a : Nat} {v : Word32} {rest : Memory} :
    Memory.wfFrom length low ((a, v) :: rest) = true ↔
      low ≤ a ∧ a < length ∧ v ≠ 0#32 ∧ Memory.wfFrom length (a + 1) rest = true := by
  simp [Memory.wfFrom, and_assoc]

@[simp] theorem read_cons_self (a : Nat) (v : Word32) (rest : Memory) : Memory.read ((a, v) :: rest) a = v :=
  if_pos rfl

theorem read_cons_ne {a b : Nat} (v : Word32) (rest : Memory) (hb : b ≠ a) :
    Memory.read ((a, v) :: rest) b = Memory.read rest b :=
  if_neg hb

/-- A canonical memory has no word that is not +0.0 before its first. -/
theorem head_le_of_read_ne_zero {length low a b : Nat} {v : Word32} {rest : Memory}
    (h : Memory.wfFrom length low ((a, v) :: rest) = true) (hb : Memory.read ((a, v) :: rest) b ≠ 0#32) : a ≤ b := by
  obtain ⟨-, -, -, hrest⟩ := wfFrom_cons.mp h
  by_contra hlt
  exact hb (by rw [read_cons_ne v rest (by omega), read_below hrest (by omega)])

/-- Two canonical memories that read the same everywhere are the same list: the first listed word of each is the first
that is not +0.0. -/
theorem eq_of_read_eq {length low : Nat} {m m' : Memory} (h : Memory.wfFrom length low m = true)
    (h' : Memory.wfFrom length low m' = true) (hread : ∀ a, Memory.read m a = Memory.read m' a) : m = m' := by
  induction m generalizing low m' with
  | nil =>
    cases m' with
    | nil => rfl
    | cons p' rest' =>
      obtain ⟨a', v'⟩ := p'
      obtain ⟨-, -, hv', -⟩ := wfFrom_cons.mp h'
      exact absurd (by simpa using (hread a').symm) hv'
  | cons p rest ih =>
    obtain ⟨a, v⟩ := p
    obtain ⟨-, -, hv, hrest⟩ := wfFrom_cons.mp h
    cases m' with
    | nil => exact absurd (by simpa using hread a) hv
    | cons p' rest' =>
      obtain ⟨a', v'⟩ := p'
      obtain ⟨-, -, hv', hrest'⟩ := wfFrom_cons.mp h'
      have hle : a' ≤ a := head_le_of_read_ne_zero h' (by rwa [← hread, read_cons_self])
      have hge : a ≤ a' := head_le_of_read_ne_zero h (by rwa [hread, read_cons_self])
      obtain rfl : a = a' := Nat.le_antisymm hge hle
      obtain rfl : v = v' := by simpa using hread a
      have htails (b : Nat) : Memory.read rest b = Memory.read rest' b := by
        by_cases hb : b = a
        · rw [hb, read_below hrest (Nat.lt_succ_self a), read_below hrest' (Nat.lt_succ_self a)]
        · simpa only [read_cons_ne v _ hb] using hread b
      rw [ih hrest hrest' htails]

/-- The words `v 0` to `v (n - 1)` written in order. -/
def fill (n : Nat) (v : Nat → Word32) (m : Memory) : Memory :=
  (List.range n).foldl (fun m i => Memory.write m i (v i)) m

theorem fill_succ (n : Nat) (v : Nat → Word32) (m : Memory) :
    fill (n + 1) v m = Memory.write (fill n v m) n (v n) := by
  simp [fill, List.range_succ]

theorem wf_fill {length n : Nat} {m : Memory} (v : Nat → Word32) (h : Memory.wf length m = true) (hn : n ≤ length) :
    Memory.wf length (fill n v m) = true := by
  induction n with
  | zero => exact h
  | succ n ih =>
    rw [fill_succ]
    exact wf_write _ (ih (by omega)) (by omega)

theorem read_fill {length n : Nat} {m : Memory} (v : Nat → Word32) (h : Memory.wf length m = true) (hn : n ≤ length)
    (a : Nat) : Memory.read (fill n v m) a = if a < n then v a else Memory.read m a := by
  induction n with
  | zero => rfl
  | succ n ih =>
    have hwf := wf_fill v h (show n ≤ length by omega)
    rw [fill_succ]
    by_cases ha : a = n
    · subst ha
      rw [read_write_same _ hwf, if_pos (Nat.lt_succ_self a)]
    · rw [read_write_other _ _ ha, ih (by omega)]
      simp only [show a < n + 1 ↔ a < n by omega]

/-- What a memory held before all its words were written is lost. -/
theorem fill_forgets {n : Nat} {m m' : Memory} (v : Nat → Word32) (h : Memory.wf n m = true)
    (h' : Memory.wf n m' = true) : fill n v m = fill n v m' := by
  refine eq_of_read_eq (wf_fill v h le_rfl) (wf_fill v h' le_rfl) fun a => ?_
  rw [read_fill v h le_rfl, read_fill v h' le_rfl]
  split
  · rfl
  · next ha => rw [read_beyond h (by omega), read_beyond h' (by omega)]

/-! ## Changes of state that a draw does not see -/

/-- `g` writes and reads neither `rng_state` nor the pink state. -/
structure OutsideNoise (g : State → State) : Prop where
  rng : ∀ s, (g s).rng = s.rng
  pink : ∀ s, (g s).pink = s.pink
  set_rng : ∀ s rng, { g s with rng := rng } = g { s with rng := rng }
  set_pink : ∀ s pink, { g s with pink := pink } = g { s with pink := pink }

/-- The draw `f` neither reads nor writes anything but `rng_state` and the pink state. -/
def DrawsFromNoise {α : Type} (f : State → α × State) : Prop :=
  ∀ g, OutsideNoise g → ∀ s, f (g s) = ((f s).1, g (f s).2)

theorem next64_drawsFromNoise : DrawsFromNoise next64 := by
  intro g hg s
  simp only [next64, hg.rng, hg.set_rng]

theorem next32_drawsFromNoise : DrawsFromNoise next32 := by
  intro g hg s
  simp only [next32, next64_drawsFromNoise g hg]

theorem nextFloat_drawsFromNoise : DrawsFromNoise nextFloat := by
  intro g hg s
  simp only [nextFloat, next32_drawsFromNoise g hg]

theorem redrawPink_outsideNoise {g : State → State} (hg : OutsideNoise g) (s : State) (i : Fin 5) :
    redrawPink (g s) i = g (redrawPink s i) := by
  simp only [redrawPink, next32_drawsFromNoise g hg, hg.pink, hg.set_pink]

theorem pinkTerm_outsideNoise {g : State → State} (hg : OutsideNoise g) (diff : BitVec 5) (r : Word32 × State)
    (i : Fin 5) : pinkTerm diff (Prod.map id g r) i = Prod.map id g (pinkTerm diff r i) := by
  simp only [pinkTerm, Prod.map, id]
  split
  · simp only [redrawPink_outsideNoise hg, hg.pink]
  · simp only [hg.pink]

theorem foldl_pinkTerm_outsideNoise {g : State → State} (hg : OutsideNoise g) (diff : BitVec 5) (l : List (Fin 5))
    (v : Word32) (s : State) :
    l.foldl (pinkTerm diff) (v, g s) = Prod.map id g (l.foldl (pinkTerm diff) (v, s)) :=
  List.foldl_hom (init := (v, s)) (Prod.map id g) (pinkTerm_outsideNoise hg diff)

theorem pinkNextValue_drawsFromNoise : DrawsFromNoise pinkNextValue := by
  intro g hg s
  simp only [pinkNextValue, hg.pink, hg.set_pink, foldl_pinkTerm_outsideNoise hg, Prod.map, id]

theorem pinkNextFloat_drawsFromNoise : DrawsFromNoise pinkNextFloat := by
  intro g hg s
  rw [pinkNextFloat, pinkNextValue_drawsFromNoise g hg, pinkNextFloat]

/-! ## The refresh of a noise bank -/

/-- The contents of a space replaced. -/
def setMemory (space : Space) (m : Memory) (s : State) : State :=
  match space with
  | .phaser => { s with phaser := m }
  | .nwhite => { s with nwhite := m }
  | .npink => { s with npink := m }

theorem setMemory_outsideNoise (space : Space) (m : Memory) : OutsideNoise (setMemory space m) := by
  cases space <;> exact ⟨fun _ => rfl, fun _ => rfl, fun _ _ => rfl, fun _ _ => rfl⟩

@[simp] theorem memory_setMemory (space : Space) (m : Memory) (s : State) : (setMemory space m s).memory space = m := by
  cases space <;> rfl

@[simp] theorem setMemory_setMemory (space : Space) (m m' : Memory) (s : State) :
    setMemory space m (setMemory space m' s) = setMemory space m s := by
  cases space <;> rfl

theorem setMemory_memory (space : Space) (s : State) : setMemory space (s.memory space) s = s := by
  cases space <;> rfl

theorem memWrite_eq_setMemory (space : Space) (i : Nat) (v : Word32) (s : State) :
    memWrite space i v s = setMemory space (Memory.write (s.memory space) i v) s := by
  cases space <;> rfl

/-- The first `n` words of a bank drawn and written in order: `RefreshWhite()` and `RefreshPink()`
(45_synth_datapath.md R182) for `n = NOISE_LEN`. -/
def refreshBank (space : Space) (draw : State → F32 × State) (n : Nat) (s : State) : State :=
  (List.range n).foldl (fun t i => memWrite space i (bankWord (draw t).1) (draw t).2) s

theorem refreshWhite_eq_refreshBank (s : State) : refreshWhite s = refreshBank .nwhite nextFloat Config.noiseLen s := rfl

theorem refreshPink_eq_refreshBank (s : State) : refreshPink s = refreshBank .npink pinkNextFloat Config.noiseLen s := rfl

theorem refreshBank_succ (space : Space) (draw : State → F32 × State) (n : Nat) (s : State) :
    refreshBank space draw (n + 1) s =
      memWrite space n (bankWord (draw (refreshBank space draw n s)).1) (draw (refreshBank space draw n s)).2 := by
  simp [refreshBank, List.range_succ]

/-- The state after `n` draws. -/
def afterDraws (draw : State → F32 × State) (n : Nat) : State → State := (fun s => (draw s).2)^[n]

/-- The word that draw `i` gives a bank. -/
def drawnWord (draw : State → F32 × State) (s : State) (i : Nat) : Word32 := bankWord (draw (afterDraws draw i s)).1

theorem afterDraws_succ (draw : State → F32 × State) (n : Nat) (s : State) :
    afterDraws draw (n + 1) s = (draw (afterDraws draw n s)).2 :=
  Function.iterate_succ_apply' _ n s

section
variable {draw : State → F32 × State} (hdraw : DrawsFromNoise draw)
include hdraw

theorem afterDraws_outsideNoise {g : State → State} (hg : OutsideNoise g) (n : Nat) (s : State) :
    afterDraws draw n (g s) = g (afterDraws draw n s) := by
  induction n with
  | zero => rfl
  | succ n ih => rw [afterDraws_succ, ih, hdraw g hg, afterDraws_succ]

theorem drawnWord_outsideNoise {g : State → State} (hg : OutsideNoise g) (s : State) :
    drawnWord draw (g s) = drawnWord draw s := by
  funext i
  rw [drawnWord, afterDraws_outsideNoise hdraw hg, hdraw g hg, drawnWord]

/-- The draws do not see the words written between them: a refresh is all the draws, then all the writes. -/
theorem refreshBank_eq_fill (space : Space) (n : Nat) (s : State) :
    refreshBank space draw n s =
      setMemory space (fill n (drawnWord draw s) (s.memory space)) (afterDraws draw n s) := by
  induction n with
  | zero => exact (setMemory_memory space s).symm
  | succ n ih =>
    rw [refreshBank_succ, ih, hdraw _ (setMemory_outsideNoise space _), memWrite_eq_setMemory, memory_setMemory,
      setMemory_setMemory, fill_succ, afterDraws_succ]
    rfl

/-- A refresh of a whole bank loses what the bank held. -/
theorem refreshBank_setMemory {space : Space} {n : Nat} {m : Memory} {s : State} (h : Memory.wf n m = true)
    (hs : Memory.wf n (s.memory space) = true) :
    refreshBank space draw n (setMemory space m s) = refreshBank space draw n s := by
  have hout := setMemory_outsideNoise space m
  rw [refreshBank_eq_fill hdraw, refreshBank_eq_fill hdraw, drawnWord_outsideNoise hdraw hout,
    afterDraws_outsideNoise hdraw hout, memory_setMemory, setMemory_setMemory, fill_forgets _ h hs]

/-- A refresh does not see a change outside the noise state and the bank. -/
theorem refreshBank_outsideNoise {g : State → State} (hg : OutsideNoise g) {space : Space}
    (hwrite : ∀ i v s, memWrite space i v (g s) = g (memWrite space i v s)) (n : Nat) (s : State) :
    refreshBank space draw n (g s) = g (refreshBank space draw n s) := by
  induction n with
  | zero => rfl
  | succ n ih => simp only [refreshBank_succ, ih, hdraw g hg, hwrite]

end

/-! ## The start of a run -/

/-- What SYNTH_START writes before it fills the banks (44_synth_control.md R151, R152). -/
def prepareRun (s : State) : State :=
  { s with
    acc := [], phase := 0#64, freq := resetFrequency s.params, env := resetEnvelope s.params,
    flt := resetFilters s.params, vib := resetVibrato s.params, pha := resetPhaser s.params, phaser := [] }

/-- What SYNTH_START writes after it. -/
def beginRun (s : State) : State :=
  { s with
    lfsr := Config.lfsrReset, rep := resetRepeat s.params
    status := { s.status with playing := true, stopCause := .running } }

theorem startRun_eq (s : State) : startRun s = beginRun (refreshPink (refreshWhite (prepareRun s))) := by
  simp only [startRun, fullReset, resetPhaserAndNoise, beginRun, prepareRun]

/-- The registers of `c` that the filling of the banks neither reads nor writes, put in. -/
def withIdleRegisters (c s : State) : State :=
  { s with status := c.status, rep := c.rep, lfsr := c.lfsr, ports := c.ports }

theorem withIdleRegisters_outsideNoise (c : State) : OutsideNoise (withIdleRegisters c) :=
  ⟨fun _ => rfl, fun _ => rfl, fun _ _ => rfl, fun _ _ => rfl⟩

theorem memWrite_withIdleRegisters (space : Space) (c : State) (i : Nat) (v : Word32) (s : State) :
    memWrite space i v (withIdleRegisters c s) = withIdleRegisters c (memWrite space i v s) := by
  cases space <;> rfl

theorem refreshWhite_withIdleRegisters (c s : State) :
    refreshWhite (withIdleRegisters c s) = withIdleRegisters c (refreshWhite s) :=
  refreshBank_outsideNoise nextFloat_drawsFromNoise (withIdleRegisters_outsideNoise c)
    (memWrite_withIdleRegisters _ c) _ s

theorem refreshPink_withIdleRegisters (c s : State) :
    refreshPink (withIdleRegisters c s) = withIdleRegisters c (refreshPink s) :=
  refreshBank_outsideNoise pinkNextFloat_drawsFromNoise (withIdleRegisters_outsideNoise c)
    (memWrite_withIdleRegisters _ c) _ s

theorem refreshWhite_setMemory_npink (m : Memory) (s : State) :
    refreshWhite (setMemory .npink m s) = setMemory .npink m (refreshWhite s) :=
  refreshBank_outsideNoise nextFloat_drawsFromNoise (setMemory_outsideNoise .npink m) (fun _ _ _ => rfl) _ s

/-- Two states with the same parameters, `rng_state` and pink state: prepared for a run, they differ in the banks and
in registers that the filling of the banks does not read. -/
theorem prepareRun_agree {s s' : State} (hparams : s.params = s'.params) (hrng : s.rng = s'.rng)
    (hpink : s.pink = s'.pink) :
    prepareRun s =
      withIdleRegisters s (setMemory .npink s.npink (setMemory .nwhite s.nwhite (prepareRun s'))) := by
  simp only [prepareRun, withIdleRegisters, setMemory, hparams, hrng, hpink]

theorem fillBanks_agree {s s' : State} (h : s.Inv) (h' : s'.Inv) (hparams : s.params = s'.params)
    (hrng : s.rng = s'.rng) (hpink : s.pink = s'.pink) :
    refreshPink (refreshWhite (prepareRun s)) =
      withIdleRegisters s (refreshPink (refreshWhite (prepareRun s'))) := by
  have hwhite : refreshWhite (setMemory .nwhite s.nwhite (prepareRun s')) = refreshWhite (prepareRun s') :=
    refreshBank_setMemory nextFloat_drawsFromNoise h.nwhiteWf h'.nwhiteWf
  have hwf : Memory.wf Config.noiseLen (refreshWhite (prepareRun s')).npink = true := by
    rw [refreshWhite_state]
    exact h'.npinkWf
  rw [prepareRun_agree hparams hrng hpink, refreshWhite_withIdleRegisters, refreshWhite_setMemory_npink, hwhite,
    refreshPink_withIdleRegisters]
  exact congrArg _ (refreshBank_setMemory pinkNextFloat_drawsFromNoise h.npinkWf hwf)

theorem startRun_status (s : State) :
    (startRun s).status = { s.status with playing := true, stopCause := .running } := by
  rw [startRun_eq, refreshPink_state, refreshWhite_state]
  rfl

/-! ## The iteration does not see the error flags and the ports -/

/-- The error flags and the ports replaced. -/
def setUnread (errflags : BitVec 6) (ports : Ports) (s : State) : State :=
  { s with status := { s.status with errflags := errflags }, ports := ports }

theorem startRun_agree {s s' : State} (h : s.Inv) (h' : s'.Inv) (hparams : s.params = s'.params)
    (hrng : s.rng = s'.rng) (hpink : s.pink = s'.pink) (hseeded : s.status.seeded = s'.status.seeded)
    (hfatal : s.status.fatal = s'.status.fatal) :
    startRun s = setUnread s.status.errflags s.ports (startRun s') := by
  have hstatus := startRun_status s'
  rw [startRun_eq] at hstatus
  rw [startRun_eq, startRun_eq, fillBanks_agree h h' hparams hrng hpink, setUnread, hstatus]
  simp only [beginRun, withIdleRegisters, hseeded, hfatal]

section
variable (e : BitVec 6) (q : Ports)

theorem setUnread_outsideNoise : OutsideNoise (setUnread e q) :=
  ⟨fun _ => rfl, fun _ => rfl, fun _ _ => rfl, fun _ _ => rfl⟩

theorem memWrite_setUnread (space : Space) (i : Nat) (v : Word32) (s : State) :
    memWrite space i v (setUnread e q s) = setUnread e q (memWrite space i v s) := by
  cases space <;> rfl

theorem refreshWhite_setUnread (s : State) : refreshWhite (setUnread e q s) = setUnread e q (refreshWhite s) :=
  refreshBank_outsideNoise nextFloat_drawsFromNoise (setUnread_outsideNoise e q) (memWrite_setUnread e q _) _ s

theorem refreshPink_setUnread (s : State) : refreshPink (setUnread e q s) = setUnread e q (refreshPink s) :=
  refreshBank_outsideNoise pinkNextFloat_drawsFromNoise (setUnread_outsideNoise e q) (memWrite_setUnread e q _) _ s

theorem wrapRefresh_setUnread (s : State) : wrapRefresh (setUnread e q s) = setUnread e q (wrapRefresh s) := by
  have hwave : (setUnread e q s).p 0 = s.p 0 := rfl
  unfold wrapRefresh
  rw [hwave]
  generalize (s.p 0).toNat = wave
  split
  · exact refreshWhite_setUnread e q s
  · exact refreshPink_setUnread e q s
  · rfl
  · simp only

theorem advancePhase_setUnread (s : State) : advancePhase (setUnread e q s) = setUnread e q (advancePhase s) := by
  have hfreq : (setUnread e q s).freq = s.freq := rfl
  have hphase : (setUnread e q s).phase = s.phase := rfl
  simp only [advancePhase, hfreq, hphase]
  split
  · exact wrapRefresh_setUnread e q { s with phase := fmod64 (add64 s.phase one64) s.freq.period }
  · rfl

theorem subSample_setUnread (r : F32 × State) :
    subSample (Prod.map id (setUnread e q) r) = Prod.map id (setUnread e q) (subSample r) := by
  simp only [subSample, Prod.map, id, advancePhase_setUnread]
  rfl

theorem subSampleLoop_setUnread (n : Nat) (r : F32 × State) :
    subSampleLoop n (Prod.map id (setUnread e q) r) = Prod.map id (setUnread e q) (subSampleLoop n r) := by
  induction n generalizing r with
  | zero => rfl
  | succ n ih => rw [subSampleLoop, subSample_setUnread, ih, subSampleLoop]

theorem sampleStep_setUnread (s : State) : sampleStep (setUnread e q s) = setUnread e q (sampleStep s) := by
  have hloop : subSamples (setUnread e q s) = Prod.map id (setUnread e q) (subSamples s) :=
    subSampleLoop_setUnread e q _ (0#32, s)
  rw [sampleStep, hloop]
  rfl

theorem repeatStep_setUnread (s : State) : repeatStep (setUnread e q s) = setUnread e q (repeatStep s) := by
  have hrep : (setUnread e q s).rep = s.rep := rfl
  simp only [repeatStep, hrep]
  split <;> rfl

theorem slideStep_setUnread (s : State) : slideStep (setUnread e q s) = setUnread e q (slideStep s) := by
  have hfreq : (setUnread e q s).freq = s.freq := rfl
  have hlimit : (setUnread e q s).p 8 = s.p 8 := rfl
  simp only [slideStep, hfreq, hlimit]
  split
  · split <;> rfl
  · rfl

theorem vibratoStep_setUnread (s : State) : vibratoStep (setUnread e q s) = setUnread e q (vibratoStep s) := by
  have hvib : (setUnread e q s).vib = s.vib := rfl
  simp only [vibratoStep, hvib]
  split <;> rfl

theorem stageStep_setUnread (s : State) : stageStep (setUnread e q s) = setUnread e q (stageStep s) := by
  have henv : (setUnread e q s).env = s.env := rfl
  simp only [stageStep, henv]
  split <;> rfl

theorem unlessEnded_setUnread {rest : State → State} (hrest : ∀ s, rest (setUnread e q s) = setUnread e q (rest s))
    (s : State) : unlessEnded rest (setUnread e q s) = setUnread e q (unlessEnded rest s) := by
  have hplaying : (setUnread e q s).status.playing = s.status.playing := rfl
  simp only [unlessEnded, hplaying]
  split
  · exact hrest s
  · rfl

/-- Steps 6b to 9: what follows a stage advance that did not end the run. -/
theorem finalSteps_setUnread (s : State) :
    sampleStep (phaserOffsetStep (volumeStep (setUnread e q s))) =
      setUnread e q (sampleStep (phaserOffsetStep (volumeStep s))) :=
  sampleStep_setUnread e q (phaserOffsetStep (volumeStep s))

theorem iteration_setUnread (s : State) : iteration (setUnread e q s) = setUnread e q (iteration s) := by
  have hacc : (setUnread e q s).acc = s.acc := rfl
  have harpeggio (t : State) : arpeggioStep (setUnread e q t) = setUnread e q (arpeggioStep t) := rfl
  have hramp (t : State) : rampStep (setUnread e q t) = setUnread e q (rampStep t) := rfl
  unfold iteration
  rw [hacc]
  split
  · rfl
  · rw [repeatStep_setUnread, harpeggio, slideStep_setUnread]
    refine unlessEnded_setUnread e q (fun t => ?_) _
    rw [vibratoStep_setUnread, hramp, stageStep_setUnread]
    exact unlessEnded_setUnread e q (finalSteps_setUnread e q) _

theorem runLoop_setUnread (n : Nat) (s : State) : runLoop n (setUnread e q s) = setUnread e q (runLoop n s) := by
  induction n generalizing s with
  | zero => rfl
  | succ n ih =>
    cases hp : s.status.playing with
    | true => rw [runLoop_playing n hp, runLoop_playing n (s := setUnread e q s) hp, iteration_setUnread, ih]
    | false => rw [runLoop_ended _ hp, runLoop_ended _ (s := setUnread e q s) hp]

end

/-! ## The two commands of a run -/

theorem synthStart_next {s t : State} (hf : s.status.fatal = false) (hs : s.status.seeded = true)
    (h : exec .synthStart s = .next t) : t = (startRun s).present { err := 0#4, data := 0#64 } := by
  have hexec : exec .synthStart s = respond 0#64 (startRun s) := by
    rw [exec, execSynthStart, fatalGate_pass _ hf, seededGate_pass _ hs]
  exact respond_next (hexec ▸ h)

theorem synthRun_next {s t : State} (hf : s.status.fatal = false) (h : exec .synthRun s = .next t) :
    t = (finishRun s).present { err := 0#4, data := (finishRun s).accSize.setWidth 64 } := by
  have hexec : exec .synthRun s = respond ((finishRun s).accSize.setWidth 64) (finishRun s) := by
    rw [exec, execSynthRun, fatalGate_pass _ hf]
  exact respond_next (hexec ▸ h)

/-- Settles O60: the states after SYNTH_START differ at most in the error flags and the ports, which the loop of
SYNTH_RUN carries along unread. -/
theorem runDependsOnParametersAndNoiseOnly : Obligations.RunDependsOnParametersAndNoiseOnly := by
  intro s s' t t' u u' hinv hinv' hparams hrng hpink hfatal hfatal' hseeded hseeded' hstart hstart' hrun hrun'
  have ht := synthStart_next hfatal hseeded hstart
  have ht' := synthStart_next hfatal' hseeded' hstart'
  have hagree : t = setUnread s.status.errflags t.ports t' := by
    rw [ht, ht', startRun_agree hinv hinv' hparams hrng hpink (by rw [hseeded, hseeded']) (by rw [hfatal, hfatal'])]
    rfl
  have hloop (n : Nat) : runLoop n t = setUnread s.status.errflags t.ports (runLoop n t') := by
    conv_lhs => rw [hagree]
    exact runLoop_setUnread _ _ n t'
  have hfatalT : t.status.fatal = false := by rw [ht, present_status, startRun_status]; exact hfatal
  have hfatalT' : t'.status.fatal = false := by rw [ht', present_status, startRun_status]; exact hfatal'
  have hfinish : finishRun t = setUnread s.status.errflags t.ports (finishRun t') := hloop _
  rw [synthRun_next hfatalT hrun, synthRun_next hfatalT' hrun', hfinish]
  exact ⟨fun n => by rw [hloop n]; rfl, rfl, rfl, rfl⟩

end Sys2Proof.Noninterference
end

section
/-!
The phaser ring (20_memory.md R53, 45_synth_datapath.md R196). The ring holds the sample written before the tap is read,
so the tap is the sample itself where the tap index is the write index, and an older word everywhere else.
-/

namespace Sys2Proof.PhaserRing

open Sys2Proof Sys2Proof.Machine Sys2Proof.Laws

/-- The tap index as an index of 20_memory.md R53: ten-bit subtraction is subtraction modulo the ring's length. -/
theorem tapIndex_toNat (ipp iphase : BitVec 10) :
    (ipp - iphase).toNat = (ipp.toNat + 1024 - iphase.toNat) % 1024 := by
  bv_omega

theorem tapIndex_eq_writeIndex_iff (ipp iphase : BitVec 10) :
    (ipp - iphase).toNat = ipp.toNat ↔ iphase = 0#10 := by
  rw [BitVec.toNat_inj]
  exact sub_eq_self

/-- The ring after `Phaser(x)`: the sample at the write index, every other word as before. -/
theorem memRead_phaserTapSample {s : State} (h : Memory.wf 1024 s.phaser = true) (x : F32) (index : Nat) :
    memRead .phaser index (phaserTapSample x s).2 =
      if index = s.pha.ipp.toNat then x else memRead .phaser index s := by
  have hwrite := memRead_memWrite (space := .phaser) .phaser s.pha.ipp.toNat index x h
  simp only [true_and] at hwrite
  exact hwrite

/-- The tap is read from the ring that `Phaser(x)` leaves: the write comes first. -/
theorem phaserTapSample_fst (x : F32) (s : State) :
    (phaserTapSample x s).1 =
      add32 x (memRead .phaser (s.pha.ipp - s.pha.iphase).toNat (phaserTapSample x s).2) := rfl

/-- The sample out: the tap is the sample in for a zero offset, and else a word the write did not touch. -/
theorem phaserTapSample_out {s : State} (h : Memory.wf 1024 s.phaser = true) (x : F32) :
    (phaserTapSample x s).1 = add32 x (if s.pha.iphase = 0#10 then x
      else memRead .phaser ((s.pha.ipp.toNat + 1024 - s.pha.iphase.toNat) % 1024) s) := by
  rw [phaserTapSample_fst, memRead_phaserTapSample h]
  simp only [tapIndex_eq_writeIndex_iff]
  rw [tapIndex_toNat]

/-- Settles O55: the sample out and the two reads of the ring, and the frame of `Phaser()`. -/
theorem phaserAddsTheDelayedTap : Obligations.PhaserAddsTheDelayedTap := by
  intro s t x y hwf hphaser
  obtain rfl : (phaserTapSample x s).1 = y := congrArg Prod.fst hphaser
  obtain rfl : (phaserTapSample x s).2 = t := congrArg Prod.snd hphaser
  have hread := memRead_phaserTapSample hwf x
  refine ⟨phaserTapSample_out hwf x, ?_, BitVec.toNat_add _ _, ?_, fun index hne => ?_, ?_⟩
  · rw [phaserTapSample_state]
  · rw [hread, if_pos rfl]
  · rw [hread, if_neg hne]
  · rw [phaserTapSample_state]

end Sys2Proof.PhaserRing
end

section
/-!
Parameters and samples (20_memory.md R52, R63). What a command does to the parameters and to the accumulator is one of
five effects, and which of them a command can have is said once, for every command; that only PARAM_WRITE changes a
parameter and that the accumulator only grows between clears are read off the effects.
-/

namespace Sys2Proof.DataEffects

open Sys2Proof Sys2Proof.Machine Sys2Proof.Laws

/-! ## The iteration keeps the parameters and the samples there are -/

/-- `t` has the parameters of `s`, and the samples of `s` before any others. -/
structure Extends (s t : State) : Prop where
  params : t.params = s.params
  acc : s.acc <+: t.acc

theorem Extends.refl (s : State) : Extends s s := ⟨rfl, List.prefix_rfl⟩

theorem Extends.trans {s t u : State} (h : Extends s t) (h' : Extends t u) : Extends s u :=
  ⟨h'.params.trans h.params, h.acc.trans h'.acc⟩

theorem repeatStep_extends (s : State) : Extends s (repeatStep s) := by
  rw [repeatStep_state]
  exact ⟨rfl, List.prefix_rfl⟩

theorem arpeggioStep_extends (s : State) : Extends s (arpeggioStep s) := ⟨rfl, List.prefix_rfl⟩

theorem slideStep_extends (s : State) : Extends s (slideStep s) := by
  rw [slideStep_state]
  exact ⟨rfl, List.prefix_rfl⟩

theorem vibratoStep_extends (s : State) : Extends s (vibratoStep s) := by
  rw [vibratoStep_state]
  exact ⟨rfl, List.prefix_rfl⟩

theorem rampStep_extends (s : State) : Extends s (rampStep s) := ⟨rfl, List.prefix_rfl⟩

theorem stageStep_extends (s : State) : Extends s (stageStep s) := by
  rw [stageStep_state]
  exact ⟨rfl, List.prefix_rfl⟩

theorem volumeStep_extends (s : State) : Extends s (volumeStep s) := ⟨rfl, List.prefix_rfl⟩

theorem phaserOffsetStep_extends (s : State) : Extends s (phaserOffsetStep s) := ⟨rfl, List.prefix_rfl⟩

theorem sampleStep_params (s : State) : (sampleStep s).params = s.params := by
  rw [sampleStep, accAppend_params, subSamples_state]

theorem sampleStep_extends (s : State) : Extends s (sampleStep s) :=
  ⟨sampleStep_params s, by rw [sampleStep_acc]; exact List.prefix_append _ _⟩

theorem unlessEnded_extends {rest : State → State} (hrest : ∀ s, Extends s (rest s)) (s : State) :
    Extends s (unlessEnded rest s) := by
  unfold unlessEnded
  split
  · exact hrest s
  · exact .refl s

theorem controlSteps_extends (s : State) : Extends s (slideStep (arpeggioStep (repeatStep s))) :=
  (repeatStep_extends s).trans <| (arpeggioStep_extends _).trans (slideStep_extends _)

theorem rampSteps_extends (s : State) : Extends s (stageStep (rampStep (vibratoStep s))) :=
  (vibratoStep_extends s).trans <| (rampStep_extends _).trans (stageStep_extends _)

theorem outputSteps_extends (s : State) : Extends s (sampleStep (phaserOffsetStep (volumeStep s))) :=
  (volumeStep_extends s).trans <| (phaserOffsetStep_extends _).trans (sampleStep_extends _)

theorem iteration_extends (s : State) : Extends s (iteration s) := by
  unfold iteration
  split
  · exact ⟨rfl, List.prefix_rfl⟩
  · refine (controlSteps_extends s).trans (unlessEnded_extends (fun t => ?_) _)
    exact (rampSteps_extends t).trans (unlessEnded_extends outputSteps_extends _)

theorem runLoop_extends (n : Nat) (s : State) : Extends s (runLoop n s) := by
  induction n generalizing s with
  | zero => exact .refl s
  | succ n ih =>
    unfold runLoop
    split
    · exact (iteration_extends s).trans (ih _)
    · exact .refl s

/-! ## The start of a run, and draws -/

theorem startRun_params (s : State) : (startRun s).params = s.params := by
  rw [Noninterference.startRun_eq, refreshPink_state, refreshWhite_state]
  rfl

theorem startRun_acc (s : State) : (startRun s).acc = [] := by
  rw [Noninterference.startRun_eq, refreshPink_state, refreshWhite_state]
  rfl

/-- `t` differs from `s` in neither the parameters nor the samples. -/
structure SameData (s t : State) : Prop where
  params : t.params = s.params
  acc : t.acc = s.acc

theorem pinkNextValue_sameData (s : State) : SameData s (pinkNextValue s).2 := by
  rw [pinkNextValue_state]
  exact ⟨rfl, rfl⟩

theorem seedRng_sameData (seed : Word64) (s : State) : SameData s (seedRng seed s) := by
  rw [seedRng, pinkConstruct_state]
  exact ⟨rfl, rfl⟩

/-! ## The effect of a command -/

/-- What the command `i` may make of the parameters and the samples of `s`. -/
inductive Effect (i : Instr) (s t : State) : Prop
  /-- Both are as they were: errors and most commands. -/
  | kept (h : SameData s t)
  /-- Samples are appended. -/
  | appended (hi : (∃ v, i = .accAppend v) ∨ i = .synthStep ∨ i = .synthRun) (h : Extends s t)
  /-- Every sample is replaced in place. -/
  | scaled (f : F32) (hi : i = .accScale f) (hparams : t.params = s.params) (hlength : t.acc.length = s.acc.length)
  /-- The accumulator is empty, and the parameters are as they were except after RESET. -/
  | cleared (hi : i = .accClear ∨ i = .synthStart ∨ i = .reset) (hparams : i ≠ .reset → t.params = s.params)
      (hacc : t.acc = [])
  /-- A legal value is stored outside a run. -/
  | written (number : BitVec 8) (v : Word32) (hi : i = .paramWrite number v) (hidle : s.status.playing = false)
      (hlegal : legalParameter number.toNat v = true) (hacc : t.acc = s.acc)

/-- Where the answer `a` to the command `i` in `s` goes on, it has an effect of `i`. -/
def HasEffect (i : Instr) (s : State) (a : Answer) : Prop := ∀ t, a = .next t → Effect i s t

section
variable {i : Instr} {s : State}

theorem hasEffect_raise (e : ErrorCode) : HasEffect i s (raise e s) := by
  intro t h
  obtain rfl := raise_next h
  exact .kept ⟨rfl, rfl⟩

theorem hasEffect_respond {v : Word64} {u : State} (h : Effect i s (u.present { err := 0#4, data := v })) :
    HasEffect i s (respond v u) := by
  intro t ht
  obtain rfl := respond_next ht
  exact h

/-- A response in a state whose parameters and samples are those of `s`. -/
theorem hasEffect_respond_kept {v : Word64} {u : State} (h : SameData s u) : HasEffect i s (respond v u) :=
  hasEffect_respond (.kept ⟨h.params, h.acc⟩)

theorem hasEffect_respond_same (v : Word64) : HasEffect i s (respond v s) :=
  hasEffect_respond_kept ⟨rfl, rfl⟩

/-- A check that fails keeps everything, so only what follows it counts. -/
theorem hasEffect_check {e : ErrorCode} {bad : Bool} {rest : State → Answer}
    (hrest : bad = false → HasEffect i s (rest s)) : HasEffect i s (check e bad s rest) := by
  intro t h
  rcases check_next h with ⟨-, rfl⟩ | ⟨hbad, h⟩
  · exact .kept ⟨rfl, rfl⟩
  · exact hrest hbad t h

theorem hasEffect_fatalGate {rest : State → Answer} (hrest : HasEffect i s (rest s)) :
    HasEffect i s (fatalGate s rest) :=
  hasEffect_check fun _ => hrest

theorem hasEffect_idleCheck {rest : State → Answer} (hrest : s.status.playing = false → HasEffect i s (rest s)) :
    HasEffect i s (idleCheck s rest) :=
  hasEffect_check hrest

theorem hasEffect_seededGate {rest : State → Answer} (hrest : HasEffect i s (rest s)) :
    HasEffect i s (seededGate s rest) :=
  hasEffect_check fun _ => hrest

theorem hasEffect_drawCommand {draw : State → Word64 × State} (hdraw : SameData s (draw s).2) :
    HasEffect i s (drawCommand draw s) :=
  hasEffect_fatalGate <| hasEffect_seededGate <| hasEffect_idleCheck fun _ => hasEffect_respond_kept hdraw

end

/-! ## Every command has one of the effects -/

section
variable (s : State)

theorem execErrClear_effect : HasEffect .errClear s (execErrClear s) := by
  have hflags : SameData s { s with status := clearErrors s.status } := ⟨rfl, rfl⟩
  exact hasEffect_fatalGate (hasEffect_respond_kept hflags)

theorem execStateRead_effect (number : BitVec 8) : HasEffect (.stateRead number) s (execStateRead number s) := by
  refine hasEffect_fatalGate ?_
  split
  · exact hasEffect_raise _
  · exact hasEffect_respond_same _

theorem execMemRead_effect (code : BitVec 8) (index : Word32) :
    HasEffect (.memRead code index) s (execMemRead code index s) := by
  refine hasEffect_fatalGate ?_
  split
  · exact hasEffect_raise _
  · exact hasEffect_check fun _ => hasEffect_respond_same _

theorem parameterNumber_val {number : BitVec 8} {n : Fin 28} (h : parameterNumber number = some n) :
    n.val = number.toNat := by
  unfold parameterNumber at h
  split at h
  · obtain rfl := Option.some.inj h
    rfl
  · cases h

/-- PARAM_WRITE stores its value behind both of its checks. -/
theorem execParamWrite_effect (number : BitVec 8) (v : Word32) :
    HasEffect (.paramWrite number v) s (execParamWrite number v s) := by
  refine hasEffect_fatalGate ?_
  split
  · exact hasEffect_raise _
  · next n hn =>
    refine hasEffect_check fun hbad => hasEffect_idleCheck fun hidle => hasEffect_respond ?_
    have hlegal : legalParameter number.toNat v = true := by
      simpa [parameterNumber_val hn] using hbad
    exact .written number v rfl hidle hlegal rfl

theorem execParamRead_effect (number : BitVec 8) : HasEffect (.paramRead number) s (execParamRead number s) := by
  refine hasEffect_fatalGate ?_
  split
  · exact hasEffect_raise _
  · exact hasEffect_respond_same _

theorem execRngSeed_effect (seed : Word64) : HasEffect (.rngSeed seed) s (execRngSeed seed s) :=
  hasEffect_fatalGate <| hasEffect_idleCheck fun _ => hasEffect_respond_kept (seedRng_sameData seed s)

theorem execAccClear_effect : HasEffect .accClear s (execAccClear s) :=
  hasEffect_fatalGate <| hasEffect_idleCheck fun _ => hasEffect_respond (.cleared (.inl rfl) (fun _ => rfl) rfl)

theorem execAccAppend_effect (v : F32) : HasEffect (.accAppend v) s (execAccAppend v s) :=
  hasEffect_fatalGate <| hasEffect_idleCheck fun _ => hasEffect_check fun _ =>
    hasEffect_respond (.appended (.inl ⟨v, rfl⟩) ⟨rfl, List.prefix_append _ _⟩)

theorem execAccRead_effect (index : Word32) : HasEffect (.accRead index) s (execAccRead index s) := by
  refine hasEffect_fatalGate ?_
  split
  · exact hasEffect_raise _
  · exact hasEffect_respond_same _

theorem execAccScale_effect (f : F32) : HasEffect (.accScale f) s (execAccScale f s) :=
  hasEffect_fatalGate <| hasEffect_idleCheck fun _ =>
    hasEffect_respond (.scaled f rfl rfl (List.length_map _))

theorem execAccPeakMean_effect : HasEffect .accPeakMean s (execAccPeakMean s) :=
  hasEffect_fatalGate (rest := fun s => respond (peakMean s.acc) s) (hasEffect_respond_same (peakMean s.acc))

theorem execAccReadPcm_effect (format : BitVec 8) (index : Word32) :
    HasEffect (.accReadPcm format index) s (execAccReadPcm format index s) := by
  refine hasEffect_fatalGate ?_
  split
  · exact hasEffect_raise _
  · split
    · exact hasEffect_raise _
    · exact hasEffect_respond_same _

theorem execAccStream_effect (format : BitVec 8) : HasEffect (.accStream format) s (execAccStream format s) := by
  refine hasEffect_fatalGate ?_
  split
  · exact hasEffect_raise _
  · exact hasEffect_respond_kept ⟨rfl, rfl⟩

theorem execSynthStart_effect : HasEffect .synthStart s (execSynthStart s) :=
  hasEffect_fatalGate <| hasEffect_seededGate <| hasEffect_respond <|
    .cleared (.inr (.inl rfl)) (fun _ => startRun_params s) (startRun_acc s)

theorem execSynthStep_effect : HasEffect .synthStep s (execSynthStep s) := by
  have hiteration := iteration_extends s
  refine hasEffect_fatalGate ?_
  split
  · exact hasEffect_respond (.appended (.inr (.inl rfl)) ⟨hiteration.params, hiteration.acc⟩)
  · exact hasEffect_respond_same _

theorem execSynthRun_effect : HasEffect .synthRun s (execSynthRun s) := by
  have hloop : Extends s (finishRun s) := runLoop_extends _ s
  exact hasEffect_fatalGate <| hasEffect_respond (.appended (.inr (.inr rfl)) ⟨hloop.params, hloop.acc⟩)

theorem exec_effect (i : Instr) : HasEffect i s (exec i s) := by
  cases i with
  | nop => exact hasEffect_fatalGate (hasEffect_respond_same _)
  | reset => exact hasEffect_respond (.cleared (.inr (.inr rfl)) (fun hne => absurd rfl hne) rfl)
  | statusRead => exact hasEffect_respond_same _
  | errClear => exact execErrClear_effect s
  | stateRead number => exact execStateRead_effect s number
  | memRead space index => exact execMemRead_effect s space index
  | paramWrite number v => exact execParamWrite_effect s number v
  | paramRead number => exact execParamRead_effect s number
  | rngSeed seed => exact execRngSeed_effect s seed
  | rngNext64 => exact hasEffect_drawCommand ⟨rfl, rfl⟩
  | rngNext32 => exact hasEffect_drawCommand ⟨rfl, rfl⟩
  | rngNextF => exact hasEffect_drawCommand ⟨rfl, rfl⟩
  | pinkNextV => exact hasEffect_drawCommand (pinkNextValue_sameData s)
  | pinkNextF => exact hasEffect_drawCommand (pinkNextValue_sameData s)
  | accClear => exact execAccClear_effect s
  | accAppend v => exact execAccAppend_effect s v
  | accSize => exact hasEffect_fatalGate (hasEffect_respond_same _)
  | accRead index => exact execAccRead_effect s index
  | accScale f => exact execAccScale_effect s f
  | accPeakMean => exact execAccPeakMean_effect s
  | accReadPcm format index => exact execAccReadPcm_effect s format index
  | accStream format => exact execAccStream_effect s format
  | synthStart => exact execSynthStart_effect s
  | synthStep => exact execSynthStep_effect s
  | synthRun => exact execSynthRun_effect s

end

/-! ## What the effects say -/

/-- Settles O25: of the five effects only a stored value, and the clearing by RESET, leave other parameters. -/
theorem parametersChangeOnlyByWrites : Obligations.ParametersChangeOnlyByWrites := by
  intro i s t hexec hreset hchanged
  cases exec_effect s i t hexec with
  | kept h => exact absurd h.params hchanged
  | appended _ h => exact absurd h.params hchanged
  | scaled _ _ hparams => exact absurd hparams hchanged
  | cleared _ hparams => exact absurd (hparams hreset) hchanged
  | written number v hi hidle hlegal => exact ⟨hidle, number, v, hi, hlegal⟩

/-- What 20_memory.md R52 says of one command. -/
def AppendOnly (i : Instr) (s t : State) : Prop :=
  (i ≠ .accClear → i ≠ .synthStart → i ≠ .reset → (∀ f, i ≠ .accScale f) → s.acc <+: t.acc) ∧
  (∀ f, i = .accScale f → t.acc.length = s.acc.length) ∧
  (t.acc.length < s.acc.length → t.acc = [] ∧ (i = .accClear ∨ i = .synthStart ∨ i = .reset))

theorem appendOnly_of_acc_eq {i : Instr} {s t : State} (h : t.acc = s.acc) : AppendOnly i s t := by
  have hlength : t.acc.length = s.acc.length := congrArg List.length h
  exact ⟨fun _ _ _ _ => h ▸ List.prefix_rfl, fun _ _ => hlength, fun hlt => absurd hlength hlt.ne⟩

theorem Effect.appendOnly {i : Instr} {s t : State} (h : Effect i s t) : AppendOnly i s t := by
  cases h with
  | kept h => exact appendOnly_of_acc_eq h.acc
  | written _ _ _ _ _ hacc => exact appendOnly_of_acc_eq hacc
  | appended hi h =>
    refine ⟨fun _ _ _ _ => h.acc, fun f hf => ?_, fun hlt => absurd h.acc.length_le hlt.not_ge⟩
    rcases hi with ⟨v, rfl⟩ | rfl | rfl <;> cases hf
  | scaled f hi _ hlength =>
    exact ⟨fun _ _ _ hne => absurd hi (hne f), fun _ _ => hlength, fun hlt => absurd hlength hlt.ne⟩
  | cleared hi _ hacc =>
    refine ⟨fun hclear hstart hreset _ => ?_, fun f hf => ?_, fun _ => ⟨hacc, hi⟩⟩
    · rcases hi with hi | hi | hi
      · exact absurd hi hclear
      · exact absurd hi hstart
      · exact absurd hi hreset
    · rcases hi with rfl | rfl | rfl <;> cases hf

/-- Settles O42: each of the five effects keeps the samples first in the list, scales them or clears them. -/
theorem accumulatorIsAppendOnly : Obligations.AccumulatorIsAppendOnly :=
  fun i s t hexec => (exec_effect s i t hexec).appendOnly

end Sys2Proof.DataEffects
end

section
/-!
Encoding (30_encoding.md R72 to R76). What the decoder does with an `op` is one of the five operand forms together with
the command made of the operands: its reading. `decode_eq_ok_iff` says in these terms which command a word decodes to;
encoder, decoder and opcode table are compared with the readings, an `op` at a time.
-/

namespace Sys2Proof.Encoding

open Sys2Proof Sys2Proof.Laws

/-! ## The fields of a word -/

theorem dataField_eq_iff_halves (w w' : CommandWord) :
    dataField w = dataField w' ↔ dataHigh w = dataHigh w' ∧ dataLow w = dataLow w' := by
  simp only [← dataField_of_halves]
  refine ⟨fun h => ⟨?_, ?_⟩, fun ⟨hhigh, hlow⟩ => by rw [hhigh, hlow]⟩
  · simpa only [high_of_append] using congrArg (BitVec.extractLsb' 32 32) h
  · simpa only [low_of_append] using congrArg (BitVec.extractLsb' 0 32) h

theorem word_eq_iff_fields (w w' : CommandWord) :
    w = w' ↔ opField w = opField w' ∧ idxField w = idxField w' ∧ dataHigh w = dataHigh w' ∧ dataLow w = dataLow w' := by
  rw [← dataField_eq_iff_halves]
  refine ⟨by rintro rfl; exact ⟨rfl, rfl, rfl⟩, fun ⟨hop, hidx, hdata⟩ => ?_⟩
  rw [← commandWord_of_fields w, hop, hidx, hdata, commandWord_of_fields]

theorem opField_and (w m : CommandWord) : opField (w &&& m) = opField w &&& opField m := BitVec.extractLsb'_and

theorem idxField_and (w m : CommandWord) : idxField (w &&& m) = idxField w &&& idxField m := BitVec.extractLsb'_and

theorem dataHigh_and (w m : CommandWord) : dataHigh (w &&& m) = dataHigh w &&& dataHigh m := BitVec.extractLsb'_and

theorem dataLow_and (w m : CommandWord) : dataLow (w &&& m) = dataLow w &&& dataLow m := BitVec.extractLsb'_and

/-- The fields that a form leaves unused are zero in `w` (30_encoding.md R73). -/
def UnusedZero (w : CommandWord) : Form → Prop
  | .n => idxField w = 0#8 ∧ dataField w = 0#64
  | .i => dataField w = 0#64
  | .d32 => idxField w = 0#8 ∧ dataHigh w = 0#32
  | .id32 => dataHigh w = 0#32
  | .d64 => idxField w = 0#8

/-! ## The reading of an `op` -/

/-- An operand form with the command made of its operands. -/
inductive Reading where
  | n (c : Instr)
  | i (f : BitVec 8 → Instr)
  | d32 (f : Word32 → Instr)
  | id32 (f : BitVec 8 → Word32 → Instr)
  | d64 (f : Word64 → Instr)

def Reading.form : Reading → Form
  | .n _ => .n
  | .i _ => .i
  | .d32 _ => .d32
  | .id32 _ => .id32
  | .d64 _ => .d64

/-- The command made of the operand fields of `w`. -/
def Reading.command (w : CommandWord) : Reading → Instr
  | .n c => c
  | .i f => f (idxField w)
  | .d32 f => f (dataLow w)
  | .id32 f => f (idxField w) (dataLow w)
  | .d64 f => f (dataField w)

/-- The model's decoder of the form. -/
def Reading.decode (w : CommandWord) : Reading → Except DecodeError Instr
  | .n c => decodeN w c
  | .i f => decodeI w f
  | .d32 f => decodeD32 w f
  | .id32 f => decodeID32 w f
  | .d64 f => decodeD64 w f

/-- The encoder writes the reading's commands with this `op` and the model's word of the form. -/
def Reading.EncodedWith (op : BitVec 8) : Reading → Prop
  | .n c => encode c = encodeN op
  | .i f => ∀ idx, encode (f idx) = encodeI op idx
  | .d32 f => ∀ low, encode (f low) = encodeD32 op low
  | .id32 f => ∀ idx low, encode (f idx low) = encodeID32 op idx low
  | .d64 f => ∀ data, encode (f data) = encodeD64 op data

/-- The reading of each listed `op` (30_encoding.md R74). -/
def reading (op : BitVec 8) : Option Reading :=
  match op.toNat with
  | 0x00 => some (.n .nop)
  | 0x01 => some (.n .reset)
  | 0x02 => some (.n .statusRead)
  | 0x03 => some (.n .errClear)
  | 0x04 => some (.i .stateRead)
  | 0x05 => some (.id32 .memRead)
  | 0x10 => some (.id32 .paramWrite)
  | 0x11 => some (.i .paramRead)
  | 0x20 => some (.d64 .rngSeed)
  | 0x21 => some (.n .rngNext64)
  | 0x22 => some (.n .rngNext32)
  | 0x23 => some (.n .rngNextF)
  | 0x24 => some (.n .pinkNextV)
  | 0x25 => some (.n .pinkNextF)
  | 0x30 => some (.n .accClear)
  | 0x31 => some (.d32 .accAppend)
  | 0x32 => some (.n .accSize)
  | 0x33 => some (.d32 .accRead)
  | 0x34 => some (.d32 .accScale)
  | 0x35 => some (.n .accPeakMean)
  | 0x36 => some (.id32 .accReadPcm)
  | 0x37 => some (.i .accStream)
  | 0x40 => some (.n .synthStart)
  | 0x41 => some (.n .synthStep)
  | 0x42 => some (.n .synthRun)
  | _ => none

/-! ## Decoder and encoder follow the readings -/

theorem decode_eq_reading (w : CommandWord) :
    decode w = (reading (opField w)).elim (.error (.undefinedOp (opField w))) (Reading.decode w) := by
  unfold decode reading
  split <;> simp_all [Reading.decode]

theorem decode_of_unlisted {w : CommandWord} (h : reading (opField w) = none) :
    decode w = .error (.undefinedOp (opField w)) := by
  rw [decode_eq_reading, h]
  rfl

theorem decode_of_unusedZero {w : CommandWord} {r : Reading} (h : reading (opField w) = some r)
    (hz : UnusedZero w r.form) : decode w = .ok (r.command w) := by
  rw [decode_eq_reading, h]
  cases r <;> exact if_pos hz

theorem decode_of_not_unusedZero {w : CommandWord} {r : Reading} (h : reading (opField w) = some r)
    (hz : ¬ UnusedZero w r.form) : decode w = .error (.mustBeZero (opField w)) := by
  rw [decode_eq_reading, h]
  cases r <;> exact if_neg hz

/-- `i` is what the reading of `op` makes of the fields of `w`, the unused ones being zero. -/
def Reads (w : CommandWord) (i : Instr) : Prop :=
  ∃ r, reading (opField w) = some r ∧ UnusedZero w r.form ∧ r.command w = i

theorem decode_eq_ok_iff (w : CommandWord) (i : Instr) : decode w = .ok i ↔ Reads w i := by
  constructor
  · intro h
    cases hr : reading (opField w) with
    | none => simp [decode_of_unlisted hr] at h
    | some r =>
      by_cases hz : UnusedZero w r.form
      · rw [decode_of_unusedZero hr hz] at h
        exact ⟨r, hr, hz, Except.ok.inj h⟩
      · simp [decode_of_not_unusedZero hr hz] at h
  · rintro ⟨r, hr, hz, rfl⟩
    exact decode_of_unusedZero hr hz

theorem encodedWith_of_reading {op : BitVec 8} {r : Reading} (h : reading op = some r) : r.EncodedWith op := by
  unfold reading at h
  split at h
  case h_26 => cases h
  all_goals
    next hop =>
    obtain ⟨-, rfl⟩ := BitVec.toNat_eq_nat.mp hop
    cases h
    simp only [Reading.EncodedWith, encode, implies_true]

/-! ## A word of a form reads as the operands it was made of -/

section
variable {op : BitVec 8}

theorem reads_encodeN {i : Instr} (h : reading op = some (.n i)) : Reads (encodeN op) i :=
  ⟨.n i, (congrArg reading (opField_commandWord ..)).trans h,
    ⟨idxField_commandWord .., dataField_commandWord ..⟩, rfl⟩

theorem reads_encodeI {f : BitVec 8 → Instr} (h : reading op = some (.i f)) (idx : BitVec 8) :
    Reads (encodeI op idx) (f idx) :=
  ⟨.i f, (congrArg reading (opField_commandWord ..)).trans h, dataField_commandWord ..,
    congrArg f (idxField_commandWord ..)⟩

theorem reads_encodeD32 {f : Word32 → Instr} (h : reading op = some (.d32 f)) (low : Word32) :
    Reads (encodeD32 op low) (f low) :=
  ⟨.d32 f, (congrArg reading (opField_commandWord ..)).trans h,
    ⟨idxField_commandWord .., (dataHigh_commandWord ..).trans (high_of_append 0#32 low)⟩,
    congrArg f ((dataLow_commandWord ..).trans (low_of_append 0#32 low))⟩

theorem reads_encodeID32 {f : BitVec 8 → Word32 → Instr} (h : reading op = some (.id32 f)) (idx : BitVec 8)
    (low : Word32) : Reads (encodeID32 op idx low) (f idx low) :=
  ⟨.id32 f, (congrArg reading (opField_commandWord ..)).trans h,
    (dataHigh_commandWord ..).trans (high_of_append 0#32 low),
    congrArg₂ f (idxField_commandWord ..) ((dataLow_commandWord ..).trans (low_of_append 0#32 low))⟩

theorem reads_encodeD64 {f : Word64 → Instr} (h : reading op = some (.d64 f)) (data : Word64) :
    Reads (encodeD64 op data) (f data) :=
  ⟨.d64 f, (congrArg reading (opField_commandWord ..)).trans h, idxField_commandWord ..,
    congrArg f (dataField_commandWord ..)⟩

end

theorem reads_encode (i : Instr) : Reads (encode i) i := by
  cases i with
  | nop => exact reads_encodeN rfl
  | reset => exact reads_encodeN rfl
  | statusRead => exact reads_encodeN rfl
  | errClear => exact reads_encodeN rfl
  | stateRead number => exact reads_encodeI rfl number
  | memRead space index => exact reads_encodeID32 rfl space index
  | paramWrite number value => exact reads_encodeID32 rfl number value
  | paramRead number => exact reads_encodeI rfl number
  | rngSeed seed => exact reads_encodeD64 rfl seed
  | rngNext64 => exact reads_encodeN rfl
  | rngNext32 => exact reads_encodeN rfl
  | rngNextF => exact reads_encodeN rfl
  | pinkNextV => exact reads_encodeN rfl
  | pinkNextF => exact reads_encodeN rfl
  | accClear => exact reads_encodeN rfl
  | accAppend sample => exact reads_encodeD32 rfl sample
  | accSize => exact reads_encodeN rfl
  | accRead index => exact reads_encodeD32 rfl index
  | accScale factor => exact reads_encodeD32 rfl factor
  | accPeakMean => exact reads_encodeN rfl
  | accReadPcm format index => exact reads_encodeID32 rfl format index
  | accStream format => exact reads_encodeI rfl format
  | synthStart => exact reads_encodeN rfl
  | synthStep => exact reads_encodeN rfl
  | synthRun => exact reads_encodeN rfl

/-- Settles O1: the encoder's word of a command reads as that command. -/
theorem decodeInvertsEncode : Obligations.DecodeInvertsEncode :=
  fun i _ => (decode_eq_ok_iff _ i).mpr (reads_encode i)

/-! ## A word that decodes is put together again from its fields -/

theorem data_of_dataHigh_zero {w : CommandWord} (h : dataHigh w = 0#32) : 0#32 ++ dataLow w = dataField w := by
  rw [← dataField_of_halves, h]

theorem encode_command {w : CommandWord} {r : Reading} (h : r.EncodedWith (opField w)) (hz : UnusedZero w r.form) :
    encode (r.command w) = w := by
  have hw := commandWord_of_fields w
  cases r with
  | n c =>
    obtain ⟨hidx, hdata⟩ := hz
    rwa [hidx, hdata, ← encodeN, ← h] at hw
  | i f =>
    rw [show dataField w = 0#64 from hz] at hw
    exact (h _).trans hw
  | d32 f =>
    obtain ⟨hidx, hhigh⟩ := hz
    rw [hidx, ← data_of_dataHigh_zero hhigh] at hw
    exact (h _).trans hw
  | id32 f =>
    rw [← data_of_dataHigh_zero hz] at hw
    exact (h _ _).trans hw
  | d64 f =>
    rw [show idxField w = 0#8 from hz] at hw
    exact (h _).trans hw

/-- The operand types are as wide as their fields (30_encoding.md R73). -/
theorem wellFormed_all (i : Instr) : i.wellFormed = true := by
  cases i <;> simp only [Instr.wellFormed, BitVec.isLt, decide_true, Bool.and_self]

/-- Settles O2: a word that decodes is put together again from the fields its reading uses. -/
theorem encodeInvertsDecode : Obligations.EncodeInvertsDecode := by
  intro w i h
  obtain ⟨r, hr, hz, rfl⟩ := (decode_eq_ok_iff w i).mp h
  exact ⟨encode_command (encodedWith_of_reading hr) hz, wellFormed_all _⟩

/-! ## The opcode table -/

/-- A word and a mask, field by field, against the bits of a row: its `op` with every other field zero. -/
theorem and_fields_eq_row_iff (w : CommandWord) (op idx : BitVec 8) (high low : Word32) :
    w &&& commandWord (.allOnes 8) idx (high ++ low) = op ++ 0#72 ↔ opField w = op ∧ idxField w &&& idx = 0#8 ∧
      dataHigh w &&& high = 0#32 ∧ dataLow w &&& low = 0#32 := by
  have hbits : encodeN op = op ++ 0#72 := BitVec.and_allOnes.symm.trans (beq_iff_eq.mp (selects_encodeN "" op))
  rw [word_eq_iff_fields, opField_and, idxField_and, dataHigh_and, dataLow_and, ← hbits]
  simp only [encodeN, opField_commandWord, idxField_commandWord, dataHigh_commandWord, dataLow_commandWord,
    high_of_append, low_of_append, BitVec.and_allOnes, BitVec.extractLsb'_zero]

theorem dataField_eq_zero_iff (w : CommandWord) : dataField w = 0#64 ↔ dataHigh w = 0#32 ∧ dataLow w = 0#32 :=
  dataField_eq_iff_halves w 0#80

/-- A row selects the words with its `op` whose unused fields are zero: those are the fields its mask keeps. -/
theorem selects_tableRow_iff (mnemonic : String) (form : Form) (op : BitVec 8) (w : CommandWord) :
    (tableRow mnemonic form op).selects w = true ↔ opField w = op ∧ UnusedZero w form := by
  refine beq_iff_eq.trans ?_
  cases form with
  | n =>
    refine (and_fields_eq_row_iff w op (.allOnes 8) (.allOnes 32) (.allOnes 32)).trans ?_
    simp only [BitVec.and_allOnes, UnusedZero, dataField_eq_zero_iff]
  | i =>
    refine (and_fields_eq_row_iff w op 0#8 (.allOnes 32) (.allOnes 32)).trans ?_
    simp only [BitVec.and_allOnes, BitVec.and_zero, true_and, UnusedZero, dataField_eq_zero_iff]
  | d32 =>
    refine (and_fields_eq_row_iff w op (.allOnes 8) (.allOnes 32) 0#32).trans ?_
    simp only [BitVec.and_allOnes, BitVec.and_zero, and_true, UnusedZero]
  | id32 =>
    refine (and_fields_eq_row_iff w op 0#8 (.allOnes 32) 0#32).trans ?_
    simp only [BitVec.and_allOnes, BitVec.and_zero, true_and, and_true, UnusedZero]
  | d64 =>
    refine (and_fields_eq_row_iff w op (.allOnes 8) 0#32 0#32).trans ?_
    simp only [BitVec.and_allOnes, BitVec.and_zero, and_true, UnusedZero]

theorem row_eq_tableRow : ∀ row ∈ opcodeTable, row = tableRow row.mnemonic row.form (opField row.bits) := by decide

theorem selects_iff {row : TableRow} (h : row ∈ opcodeTable) (w : CommandWord) :
    row.selects w = true ↔ opField w = opField row.bits ∧ UnusedZero w row.form := by
  conv_lhs => rw [row_eq_tableRow row h]
  exact selects_tableRow_iff _ _ _ w

theorem reading_of_row : ∀ row ∈ opcodeTable, (reading (opField row.bits)).map Reading.form = some row.form := by
  decide

theorem row_of_reading : ∀ op, (reading op).isSome = true → op ∈ opcodeTable.map fun row => opField row.bits := by
  decide

theorem rows_have_different_ops : (opcodeTable.map fun row => opField row.bits).Nodup := by decide

/-- The listed `op` values are those with a reading, and a row has the form of its `op`'s reading. -/
theorem exists_row_iff (op : BitVec 8) (form : Form) :
    (∃ row ∈ opcodeTable, op = opField row.bits ∧ form = row.form) ↔ ∃ r, reading op = some r ∧ r.form = form := by
  constructor
  · rintro ⟨row, hrow, rfl, rfl⟩
    exact Option.map_eq_some_iff.mp (reading_of_row row hrow)
  · rintro ⟨r, hr, rfl⟩
    obtain ⟨row, hrow, rfl⟩ := List.mem_map.mp (row_of_reading op (by simp [hr]))
    have hform := reading_of_row row hrow
    rw [hr] at hform
    exact ⟨row, hrow, rfl, Option.some.inj hform⟩

theorem wordWellFormed_iff (w : CommandWord) :
    wordWellFormed w = true ↔ ∃ r, reading (opField w) = some r ∧ UnusedZero w r.form := by
  rw [wordWellFormed, List.any_eq_true]
  constructor
  · rintro ⟨row, hrow, hsel⟩
    obtain ⟨hop, hz⟩ := (selects_iff hrow w).mp hsel
    obtain ⟨r, hr, hform⟩ := (exists_row_iff _ _).mp ⟨row, hrow, hop, rfl⟩
    exact ⟨r, hr, hform ▸ hz⟩
  · rintro ⟨r, hr, hz⟩
    obtain ⟨row, hrow, hop, hform⟩ := (exists_row_iff _ _).mpr ⟨r, hr, rfl⟩
    exact ⟨row, hrow, (selects_iff hrow w).mpr ⟨hop, hform ▸ hz⟩⟩

theorem reading_eq_none_iff (op : BitVec 8) :
    reading op = none ↔ ∀ row ∈ opcodeTable, op ≠ opField row.bits := by
  rw [Option.eq_none_iff_forall_ne_some]
  constructor
  · rintro h row hrow rfl
    obtain ⟨r, hr, -⟩ := (exists_row_iff _ _).mp ⟨row, hrow, rfl, rfl⟩
    exact h r hr
  · intro h r hr
    obtain ⟨row, hrow, hop, -⟩ := (exists_row_iff _ _).mpr ⟨r, hr, rfl⟩
    exact h row hrow hop

theorem exists_decode_iff (w : CommandWord) : (∃ i, decode w = .ok i) ↔ wordWellFormed w = true := by
  rw [wordWellFormed_iff]
  constructor
  · rintro ⟨i, h⟩
    obtain ⟨r, hr, hz, -⟩ := (decode_eq_ok_iff w i).mp h
    exact ⟨r, hr, hz⟩
  · rintro ⟨r, hr, hz⟩
    exact ⟨_, decode_of_unusedZero hr hz⟩

theorem decode_undefinedOp_iff (w : CommandWord) :
    decode w = .error (.undefinedOp (opField w)) ↔ reading (opField w) = none := by
  refine ⟨fun h => ?_, decode_of_unlisted⟩
  cases hr : reading (opField w) with
  | none => rfl
  | some r =>
    by_cases hz : UnusedZero w r.form
    · simp [decode_of_unusedZero hr hz] at h
    · simp [decode_of_not_unusedZero hr hz] at h

/-- Settles O3: a row and a reading ask the same of a word, and no two rows have the same `op`. -/
theorem decodeAgreesWithOpcodeTable : Obligations.DecodeAgreesWithOpcodeTable := by
  refine ⟨exists_decode_iff, fun w row hrow row' hrow' hsel hsel' => ?_, fun w => ?_⟩
  · obtain ⟨hop, -⟩ := (selects_iff hrow w).mp hsel
    obtain ⟨hop', -⟩ := (selects_iff hrow' w).mp hsel'
    exact List.inj_on_of_nodup_map rows_have_different_ops hrow hrow' (hop.symm.trans hop')
  · exact (decode_undefinedOp_iff w).trans (reading_eq_none_iff (opField w))

/-! ## Words written out -/

/-- Settles O4: the decoder is run on each word. -/
theorem wordsWrittenOutDecode : Obligations.WordsWrittenOutDecode :=
  ⟨rfl, rfl, rfl, rfl, rfl, rfl, rfl, rfl, rfl, rfl, rfl, rfl⟩

end Sys2Proof.Encoding
end

section
/-!
The interface (30_encoding.md R70, R71). Every command in every state goes on to a state with a response and with the
host's samples as they were, which is said of the checks, the responses and the errors once; and what a step does with
one sample, by what waits on the output ports.
-/

namespace Sys2Proof.Interface

open Sys2Proof Sys2Proof.Machine Sys2Proof.Laws

/-! ## What the operations leave on the ports -/

/-- The loop of a run commutes with replacing the ports, so it does not change them. -/
theorem runLoop_ports (n : Nat) (s : State) : (runLoop n s).ports = s.ports :=
  (congrArg State.ports (Noninterference.runLoop_setUnread s.status.errflags s.ports n s) :)

theorem iteration_ports (s : State) : (iteration s).ports = s.ports :=
  (congrArg State.ports (Noninterference.iteration_setUnread s.status.errflags s.ports s) :)

theorem startRun_ports (s : State) : (startRun s).ports = s.ports := by
  rw [Noninterference.startRun_eq, refreshPink_state, refreshWhite_state]
  rfl

theorem pinkNextValue_ports (s : State) : (pinkNextValue s).2.ports = s.ports := by rw [pinkNextValue_state]

theorem seedRng_ports (seed : Word64) (s : State) : (seedRng seed s).ports = s.ports := by
  rw [seedRng, pinkConstruct_state]

/-! ## Answers -/

/-- `a` goes on to a state with a response, and uses up nothing of what the host drives. -/
def Answers (s : State) (a : Answer) : Prop :=
  ∃ t r, a = .next t ∧ t.ports.rsp = some r ∧ t.ports.input = s.ports.input

section
variable {s : State}

theorem answers_raise (e : ErrorCode) : Answers s (raise e s) := ⟨_, _, rfl, rfl, rfl⟩

theorem answers_respond {u : State} (v : Word64) (h : u.ports.input = s.ports.input) : Answers s (respond v u) :=
  ⟨_, _, rfl, rfl, h⟩

theorem answers_respond_ports {u : State} (v : Word64) (h : u.ports = s.ports) : Answers s (respond v u) :=
  answers_respond v (congrArg Ports.input h)

theorem answers_check {e : ErrorCode} {bad : Bool} {rest : State → Answer} (hrest : Answers s (rest s)) :
    Answers s (check e bad s rest) := by
  cases bad with
  | true => exact answers_raise e
  | false => exact hrest

theorem answers_fatalGate {rest : State → Answer} (hrest : Answers s (rest s)) : Answers s (fatalGate s rest) :=
  answers_check hrest

theorem answers_idleCheck {rest : State → Answer} (hrest : Answers s (rest s)) : Answers s (idleCheck s rest) :=
  answers_check hrest

theorem answers_seededGate {rest : State → Answer} (hrest : Answers s (rest s)) : Answers s (seededGate s rest) :=
  answers_check hrest

theorem answers_drawCommand {draw : State → Word64 × State} (h : (draw s).2.ports = s.ports) :
    Answers s (drawCommand draw s) :=
  answers_fatalGate <| answers_seededGate <| answers_idleCheck <| answers_respond_ports _ h

end

/-! ## Every command answers -/

section
variable (s : State)

theorem execErrClear_answers : Answers s (execErrClear s) :=
  answers_fatalGate <| answers_respond _ (u := { s with status := clearErrors s.status }) rfl

theorem execStateRead_answers (number : BitVec 8) : Answers s (execStateRead number s) := by
  refine answers_fatalGate ?_
  split
  · exact answers_raise _
  · exact answers_respond _ rfl

theorem execMemRead_answers (code : BitVec 8) (index : Word32) : Answers s (execMemRead code index s) := by
  refine answers_fatalGate ?_
  split
  · exact answers_raise _
  · exact answers_check (answers_respond _ rfl)

theorem execParamWrite_answers (number : BitVec 8) (value : Word32) : Answers s (execParamWrite number value s) := by
  refine answers_fatalGate ?_
  split
  · exact answers_raise _
  · exact answers_check (answers_idleCheck (answers_respond _ rfl))

theorem execParamRead_answers (number : BitVec 8) : Answers s (execParamRead number s) := by
  refine answers_fatalGate ?_
  split
  · exact answers_raise _
  · exact answers_respond _ rfl

theorem execRngSeed_answers (seed : Word64) : Answers s (execRngSeed seed s) :=
  answers_fatalGate <| answers_idleCheck <| answers_respond_ports _ (seedRng_ports seed s)

theorem execAccClear_answers : Answers s (execAccClear s) :=
  answers_fatalGate <| answers_idleCheck <| answers_respond _ (u := { s with acc := [] }) rfl

theorem execAccAppend_answers (sample : F32) : Answers s (execAccAppend sample s) :=
  answers_fatalGate <| answers_idleCheck <| answers_check <| answers_respond _ (u := accAppend sample s) rfl

theorem execAccRead_answers (index : Word32) : Answers s (execAccRead index s) := by
  refine answers_fatalGate ?_
  split
  · exact answers_raise _
  · exact answers_respond _ rfl

theorem execAccScale_answers (factor : F32) : Answers s (execAccScale factor s) :=
  answers_fatalGate <| answers_idleCheck <|
    answers_respond _ (u := { s with acc := s.acc.map fun v => mul32 v factor }) rfl

theorem execAccPeakMean_answers : Answers s (execAccPeakMean s) :=
  answers_fatalGate (rest := fun s => respond (peakMean s.acc) s) (answers_respond _ rfl)

theorem execAccReadPcm_answers (format : BitVec 8) (index : Word32) : Answers s (execAccReadPcm format index s) := by
  refine answers_fatalGate ?_
  split
  · exact answers_raise _
  · split
    · exact answers_raise _
    · exact answers_respond _ rfl

/-- ACC_STREAM is the one command that leaves stream bytes; it uses up no input either. -/
theorem execAccStream_answers (format : BitVec 8) : Answers s (execAccStream format s) := by
  refine answers_fatalGate ?_
  split
  · exact answers_raise _
  · exact answers_respond _ rfl

theorem execSynthStart_answers : Answers s (execSynthStart s) :=
  answers_fatalGate <| answers_seededGate <| answers_respond_ports _ (startRun_ports s)

theorem execSynthStep_answers : Answers s (execSynthStep s) := by
  refine answers_fatalGate ?_
  split
  · exact answers_respond_ports _ (iteration_ports s)
  · exact answers_respond _ rfl

theorem execSynthRun_answers : Answers s (execSynthRun s) :=
  answers_fatalGate <| answers_respond_ports _ (runLoop_ports _ s)

theorem exec_answers (i : Instr) : Answers s (exec i s) := by
  cases i with
  | nop => exact answers_fatalGate (answers_respond _ rfl)
  | reset => exact answers_respond _ rfl
  | statusRead => exact answers_respond _ rfl
  | errClear => exact execErrClear_answers s
  | stateRead number => exact execStateRead_answers s number
  | memRead space index => exact execMemRead_answers s space index
  | paramWrite number value => exact execParamWrite_answers s number value
  | paramRead number => exact execParamRead_answers s number
  | rngSeed seed => exact execRngSeed_answers s seed
  | rngNext64 => exact answers_drawCommand rfl
  | rngNext32 => exact answers_drawCommand rfl
  | rngNextF => exact answers_drawCommand rfl
  | pinkNextV => exact answers_drawCommand (pinkNextValue_ports s)
  | pinkNextF => exact answers_drawCommand (pinkNextValue_ports s)
  | accClear => exact execAccClear_answers s
  | accAppend sample => exact execAccAppend_answers s sample
  | accSize => exact answers_fatalGate (answers_respond _ rfl)
  | accRead index => exact execAccRead_answers s index
  | accScale factor => exact execAccScale_answers s factor
  | accPeakMean => exact execAccPeakMean_answers s
  | accReadPcm format index => exact execAccReadPcm_answers s format index
  | accStream format => exact execAccStream_answers s format
  | synthStart => exact execSynthStart_answers s
  | synthStep => exact execSynthStep_answers s
  | synthRun => exact execSynthRun_answers s

end

/-! ## A word, legal or not -/

theorem execWord_of_decode {w : CommandWord} {i : Instr} (s : State) (h : decode w = .ok i) :
    execWord w s = exec i s := by
  rw [execWord, h]

/-- The error of a word that decodes to nothing: the fatal gate looks at `op` and comes first
(40_system_and_parameters.md R90). -/
def illegalError (w : CommandWord) (s : State) : ErrorCode :=
  if s.status.fatal = true ∧ opField w ≠ 0x01#8 ∧ opField w ≠ 0x02#8 then .fatal else .illegal

theorem illegalCommand_eq_raise (w : CommandWord) (s : State) :
    illegalCommand (opField w) s = raise (illegalError w s) s := by
  have hgate : (s.status.fatal && !passesGate (opField w)) = true ↔
      s.status.fatal = true ∧ opField w ≠ 0x01#8 ∧ opField w ≠ 0x02#8 := by
    simp [passesGate]
  unfold illegalCommand illegalError
  simp only [hgate]
  split <;> rfl

theorem execWord_of_decode_error {w : CommandWord} {e : DecodeError} (s : State) (h : decode w = .error e) :
    execWord w s = raise (illegalError w s) s := by
  rw [execWord, h]
  exact illegalCommand_eq_raise w s

/-- Settles O7: a word that decodes is answered by its command, any other by an error. -/
theorem everyCommandIsAnswered : Obligations.EveryCommandIsAnswered := by
  intro w s
  show Answers s (execWord w s)
  cases h : decode w with
  | ok i =>
    rw [execWord_of_decode s h]
    exact exec_answers s i
  | error e =>
    rw [execWord_of_decode_error s h]
    exact answers_raise _

/-! ## A step, by what waits on the output ports -/

theorem step_idle {s : State} (h : s.ports.input = []) : step s = .next s := by rw [step, h]

/-- `s` with the sample that a step used up gone from its input. -/
def withInput (rest : List PortSample) (s : State) : State := { s with ports := { s.ports with input := rest } }

section
variable {s : State} {x : PortSample} {rest : List PortSample} (hx : s.ports.input = x :: rest) (hrst : x.rst = false)
include hx

theorem step_of_input : step s = sample x (withInput rest s) := by
  rw [step, hx]
  rfl

include hrst

theorem step_stream (hs : s.ports.stream ≠ []) : step s = .next (transferByte x.soReady (withInput rest s)) := by
  have hvalid : (withInput rest s).soValid = true := by simpa [State.soValid, withInput] using hs
  simp [step_of_input hx, sample, hrst, hvalid]

theorem step_response (hs : s.ports.stream = []) (hr : s.ports.rsp ≠ none) :
    step s = .next (transferResponse x.rspReady (withInput rest s)) := by
  have hso : (withInput rest s).soValid = false := by simp [State.soValid, withInput, hs]
  have hrsp : (withInput rest s).rspValid = true := by
    simpa [State.rspValid, withInput, hs, Option.isSome_iff_ne_none] using hr
  simp [step_of_input hx, sample, hrst, hso, hrsp]

/-- With no output waiting the command presented is accepted, if there is one. -/
theorem step_ready (hs : s.ports.stream = []) (hr : s.ports.rsp = none) :
    step s = x.command.elim (.next (withInput rest s)) fun w => execWord w (withInput rest s) := by
  have hso : (withInput rest s).soValid = false := by simp [State.soValid, withInput, hs]
  have hrsp : (withInput rest s).rspValid = false := by simp [State.rspValid, withInput, hr]
  simp only [step_of_input hx, sample, hrst, hso, hrsp, Bool.false_eq_true, if_false]
  cases x.command <;> rfl

end

/-- Settles O5: with no output waiting the word presented is accepted, and then either its command or an error answers
it. -/
theorem stepRunsTheAcceptedCommand : Obligations.StepRunsTheAcceptedCommand := by
  refine ⟨fun s x rest w hx hrst hs hr hw => ?_, fun s w => ?_, fun s w i => execWord_of_decode s⟩
  · have hstep : step s = execWord w (withInput rest s) := by
      rw [step_ready hx hrst hs hr, hw]
      rfl
    refine ⟨hstep, fun i h => ?_, fun e h => ⟨illegalError w s, ?_, rfl⟩⟩
    · rw [hstep, execWord_of_decode _ h]
      rfl
    · rw [hstep, execWord_of_decode_error _ h]
      rfl
  · have hword : BitVec.ofNat 80 (w.toNat % 2 ^ 80) = w := by
      rw [Nat.mod_eq_of_lt w.isLt, BitVec.ofNat_toNat, BitVec.setWidth_eq]
    rw [step_ready (s := s.withFetchWord 80 w.toNat) rfl rfl rfl rfl]
    exact congrArg (fun v => execWord v { s with ports := { input := [], stream := [], rsp := none } }) hword

/-- Settles O6: the cases of a step with stream bytes waiting, with a response waiting, and with neither. -/
theorem outputsGoOutInOrder : Obligations.OutputsGoOutInOrder := by
  refine ⟨fun s => by simp [State.cmdReady], fun s => step_idle, fun s x rest hx hrst => ⟨fun hs => ?_, fun hs hr => ?_,
    fun hs hr hc => ?_⟩⟩
  · rw [step_stream hx hrst hs, transferByte]
    cases x.soReady <;> rfl
  · rw [step_response hx hrst hs hr, transferResponse]
    cases x.rspReady <;> simp [withInput, hs]
  · rw [step_ready hx hrst hs hr, hc]
    simp [withInput, hs, hr]

end Sys2Proof.Interface
end

section
/-!
System and parameter commands (40_system_and_parameters.md). A command that gives a value is its response behind the
fatal gate: `exec_nop` to `exec_paramWrite` say this once of each, and its checks are then cases of what a table of
registers or spaces holds. `legal(n, v)` is a comparison of binary32 patterns, and the order of those is the order of
the signed magnitudes they are read as (00_scope.md R13).
-/

namespace Sys2Proof.SystemCommands

open Sys2Proof Sys2Proof.Machine Sys2Proof.Laws

/-! ## The order of the binary32 patterns (00_scope.md R13) -/

/-- A pattern is read as a sign and a magnitude; `0x80000000` is the sign alone, so both zeros have the key 0. -/
theorem orderKey_binary32 (v : F32) :
    binary32.orderKey v.toNat = if v.toNat < 0x80000000 then (v.toNat : Int) else 0x80000000 - (v.toNat : Int) := by
  have hv := v.isLt
  have hsign : v.toNat.testBit 31 = true ↔ ¬ v.toNat < 0x80000000 := by
    rw [Nat.testBit_eq_decide_div_mod_eq, decide_eq_true_iff]
    omega
  simp only [FloatFormat.orderKey, FloatFormat.signBit, binary32, Nat.reduceSub, Nat.reducePow, hsign, ite_not]
  split <;> omega

/-- The NaNs are the patterns beyond an infinity of either sign. -/
theorem isNaN_binary32_eq_false_iff (v : F32) :
    binary32.isNaN v.toNat = false ↔
      v.toNat ≤ 0x7F800000 ∨ (0x80000000 ≤ v.toNat ∧ v.toNat ≤ 0xFF800000) := by
  have hv := v.isLt
  rw [FloatFormat.isNaN, decide_eq_false_iff_not]
  simp only [FloatFormat.infBits, FloatFormat.topExponent, FloatFormat.signBit, binary32, Nat.reduceSub,
    Nat.reducePow, Nat.reduceMul]
  omega

theorem le32_iff (x y : F32) :
    le32 x y = true ↔ binary32.isNaN x.toNat = false ∧ binary32.isNaN y.toNat = false ∧
      binary32.orderKey x.toNat ≤ binary32.orderKey y.toNat := by
  simp [le32, FloatFormat.le, and_assoc]

/-- From `+0.0` up: the patterns without a sign up to +infinity, and `-0.0`. -/
theorem zero_le32_iff (v : F32) : le32 0#32 v = true ↔ v.toNat ≤ 0x7F800000 ∨ v.toNat = 0x80000000 := by
  have hzero : binary32.isNaN (0#32 : F32).toNat = false ∧ binary32.orderKey (0#32 : F32).toNat = 0 := by decide
  simp only [le32_iff, isNaN_binary32_eq_false_iff v, orderKey_binary32 v, hzero, true_and]
  split <;> omega

theorem negOne_le32_iff (v : F32) :
    le32 negOne32 v = true ↔ v.toNat ≤ 0x7F800000 ∨ (0x80000000 ≤ v.toNat ∧ v.toNat ≤ 0xBF800000) := by
  have hnegOne : binary32.isNaN negOne32.toNat = false ∧ binary32.orderKey negOne32.toNat = -0x3F800000 := by decide
  simp only [le32_iff, isNaN_binary32_eq_false_iff v, orderKey_binary32 v, hnegOne, true_and]
  split <;> omega

theorem le32_one_iff (v : F32) :
    le32 v one32 = true ↔ v.toNat ≤ 0x3F800000 ∨ (0x80000000 ≤ v.toNat ∧ v.toNat ≤ 0xFF800000) := by
  have hone : binary32.isNaN one32.toNat = false ∧ binary32.orderKey one32.toNat = 0x3F800000 := by decide
  simp only [le32_iff, isNaN_binary32_eq_false_iff v, orderKey_binary32 v, hone, true_and]
  split <;> omega

/-! ## Legal values (40_system_and_parameters.md R99) -/

theorem legalSigned_iff (v : Word32) :
    (le32 negOne32 v && le32 v one32) = true ↔
      v.toNat ≤ 0x3F800000 ∨ (0x80000000 ≤ v.toNat ∧ v.toNat ≤ 0xBF800000) := by
  rw [Bool.and_eq_true, negOne_le32_iff, le32_one_iff]
  omega

theorem legalUnsigned_iff (v : Word32) :
    (le32 0#32 v && le32 v one32) = true ↔ v.toNat ≤ 0x3F800000 ∨ v.toNat = 0x80000000 := by
  rw [Bool.and_eq_true, zero_le32_iff, le32_one_iff]
  omega

/-- The patterns of 0.0, 1.0, ..., 24.0. -/
theorem map_nat32_range : (List.range 25).map nat32 = [0x00000000#32, 0x3F800000#32, 0x40000000#32, 0x40400000#32,
    0x40800000#32, 0x40A00000#32, 0x40C00000#32, 0x40E00000#32, 0x41000000#32, 0x41100000#32, 0x41200000#32,
    0x41300000#32, 0x41400000#32, 0x41500000#32, 0x41600000#32, 0x41700000#32, 0x41800000#32, 0x41880000#32,
    0x41900000#32, 0x41980000#32, 0x41A00000#32, 0x41A80000#32, 0x41B00000#32, 0x41B80000#32, 0x41C00000#32] := by
  decide +kernel

theorem legalDepth_iff (v : Word32) : legalDepth v = true ↔ v = 0x80000000#32 ∨ v ∈ (List.range 25).map nat32 := by
  simp only [legalDepth, Bool.or_eq_true, decide_eq_true_eq, List.any_eq_true, List.mem_map, eq_comm (a := v)]

/-- Settles O22: the four kinds of parameter, each by its own condition on patterns. -/
theorem legalParameterPatterns : Obligations.LegalParameterPatterns := by
  intro n v _
  simp only [legalParameter, signedParameter, decide_eq_true_eq]
  split_ifs with hwave hdepth hsigned
  · exact decide_eq_true_iff
  · rw [legalDepth_iff, map_nat32_range]
    simp only [List.mem_cons, or_left_comm]
  · exact legalSigned_iff v
  · exact legalUnsigned_iff v

/-! ## NOP (R91) -/

theorem exec_nop {s : State} (hf : s.status.fatal = false) : exec .nop s = respond 0#64 s := fatalGate_pass _ hf

/-- A word with NOP's `op` that is not all zeros leaves an unused field nonzero. -/
theorem decode_of_opField_zero {w : CommandWord} (hop : opField w = 0#8) (hw : w ≠ 0#80) :
    decode w = .error (.mustBeZero (opField w)) := by
  have hread : Encoding.reading (opField w) = some (.n .nop) := by rw [hop]; rfl
  refine Encoding.decode_of_not_unusedZero hread fun ⟨hidx, hdata⟩ => hw ?_
  rw [← commandWord_of_fields w, hop, hidx, hdata]
  rfl

/-- Settles O15: the gate open or closed, and the words that share NOP's `op`. -/
theorem nopAnswersZero : Obligations.NopAnswersZero := by
  refine ⟨fun s => exec_nop, fun s => fatalGate_closed _, by decide, fun w s hop hw hf => ?_⟩
  have hcode : Interface.illegalError w s = .illegal := by simp [Interface.illegalError, hf]
  rw [Interface.execWord_of_decode_error s (decode_of_opField_zero hop hw), hcode, raise]

/-! ## Hard reset (R96; 70_reset_and_hazards.md R230) -/

theorem step_rst {s : State} {x : PortSample} {rest : List PortSample} (hx : s.ports.input = x :: rest)
    (hrst : x.rst = true) : step s = .next (hardReset (Interface.withInput rest s)) := by
  rw [Interface.step_of_input hx, sample, if_pos hrst]

/-- Settles O17: both are `hardReset`, the one followed by a response, the other in place of the rest of its sample. -/
theorem hardResetsComplete : Obligations.HardResetsComplete :=
  ⟨fun _ => rfl, fun _ _ _ hx hrst => (step_rst hx hrst).trans rfl⟩

/-! ## STATUS_READ (R92; 10_state.md R25) -/

/-- `STATUS` field by field, from bit 0 up; `errflags` has no bit from 6 on. -/
theorem getLsbD_statusWord (t : Status) (i : Nat) :
    (statusWord t).getLsbD i =
      if i = 0 then t.playing else if i = 1 then t.seeded else if i = 2 then t.fatal
      else if i < 5 then t.stopCause.code.getLsbD (i - 3)
      else if i < 8 then false else t.errflags.getLsbD (i - 8) := by
  simp only [statusWord, BitVec.getLsbD_append, BitVec.getLsbD_zero, Nat.sub_sub]
  obtain rfl | rfl | rfl | hcause | hzero | herr | hhigh : i = 0 ∨ i = 1 ∨ i = 2 ∨ (3 ≤ i ∧ i < 5) ∨
      (5 ≤ i ∧ i < 8) ∨ (8 ≤ i ∧ i < 14) ∨ 14 ≤ i := by omega
  · simp
  · simp
  · simp
  · simp (disch := omega) only [if_pos, if_neg]
  · simp (disch := omega) only [if_pos, if_neg]
  · simp (disch := omega) only [if_pos, if_neg]
  · simp (disch := omega) only [if_neg, BitVec.getLsbD_of_ge]

/-- A field of the response, compared bit by bit. -/
theorem extractLsb'_statusWord {t : Status} (start : Nat) {len : Nat} {x : BitVec len}
    (h : ∀ i < len, (statusWord t).getLsbD (start + i) = x.getLsbD i) (hlen : start + len ≤ 64) :
    ((statusWord t).setWidth 64).extractLsb' start len = x := by
  apply BitVec.eq_of_getLsbD_eq
  intro i hi
  rw [BitVec.getLsbD_extractLsb', BitVec.getLsbD_setWidth, h i hi, decide_eq_true hi,
    decide_eq_true (show start + i < 64 by omega), Bool.true_and, Bool.true_and]

/-- Settles O18: the fields of `STATUS` one by one. -/
theorem statusReadBits : Obligations.StatusReadBits := by
  intro s
  have hbit : ∀ i < 64, ((statusWord s.status).setWidth 64).getLsbD i = (statusWord s.status).getLsbD i :=
    fun i hi => by rw [BitVec.getLsbD_setWidth, decide_eq_true hi, Bool.true_and]
  refine ⟨(statusWord s.status).setWidth 64, rfl, (hbit 0 (by decide)).trans (getLsbD_statusWord ..),
    (hbit 1 (by decide)).trans (getLsbD_statusWord ..), (hbit 2 (by decide)).trans (getLsbD_statusWord ..),
    ?_, ?_, ?_, ?_⟩
  · have hcause : ((statusWord s.status).setWidth 64).extractLsb' 3 2 = s.status.stopCause.code :=
      extractLsb'_statusWord 3 (fun i hi => by
        simp (disch := omega) only [getLsbD_statusWord, if_pos, if_neg, Nat.add_sub_cancel_left]) (by decide)
    rw [hcause]
    cases s.status.stopCause <;> rfl
  · refine extractLsb'_statusWord 5 (fun i hi => ?_) (by decide)
    simp (disch := omega) only [getLsbD_statusWord, if_pos, if_neg, BitVec.getLsbD_zero]
  · refine extractLsb'_statusWord 8 (fun i hi => ?_) (by decide)
    simp (disch := omega) only [getLsbD_statusWord, if_neg, Nat.add_sub_cancel_left]
  · refine extractLsb'_statusWord 14 (fun i hi => ?_) (by decide)
    simp (disch := omega) only [getLsbD_statusWord, if_neg, BitVec.getLsbD_zero, BitVec.getLsbD_of_ge]

/-! ## ERR_CLEAR (R93) -/

theorem exec_errClear {s : State} (hf : s.status.fatal = false) :
    exec .errClear s = respond 0#64 { s with status := clearErrors s.status } := by
  rw [exec, execErrClear, fatalGate_pass _ hf]

theorem getLsbD_clearErrors (t : Status) (k : Nat) :
    (clearErrors t).errflags.getLsbD k = (t.errflags.getLsbD k && decide (k = 4)) := by
  have hmask : (0b010000#6).getLsbD k = decide (k = 4) := by
    rw [show 0b010000#6 = BitVec.twoPow 6 4 by decide, BitVec.getLsbD_twoPow]
    simp [eq_comm]
  rw [clearErrors_errflags, BitVec.getLsbD_and, hmask]

/-- Settles O19: the flags kept are those of the mask of `clearErrors`. -/
theorem errClearKeepsTheRangeFlag : Obligations.ErrClearKeepsTheRangeFlag :=
  fun s hf => ⟨(clearErrors s.status).errflags, exec_errClear hf, getLsbD_clearErrors s.status⟩

/-! ## STATE_READ (R94; 10_state.md R26) -/

theorem exec_stateRead {s : State} {number : BitVec 8} (hf : s.status.fatal = false) :
    exec (.stateRead number) s = (stateRegister number s).elim (raise .config s) (respond · s) := by
  rw [exec, execStateRead, fatalGate_pass _ hf]
  cases stateRegister number s <;> rfl

/-- There is no state number above 0x2A. -/
theorem stateRegister_beyond {number : BitVec 8} (s : State) (h : 0x2A < number.toNat) :
    stateRegister number s = none := by
  unfold stateRegister
  split
  case h_44 => rfl
  all_goals omega

/-- Settles O20: the table is gone through number by number; `env_stage` is the one register that is not read as it
stands. -/
theorem stateReadTable : Obligations.StateReadTable := by
  intro s number hf
  rw [exec_stateRead hf]
  refine ⟨fun h => by rw [stateRegister_beyond s h]; rfl, fun v hv => ?_⟩
  suffices hreg : stateRegister number s = some v by rw [hreg]; rfl
  have hlen : number.toNat < 43 := (List.getElem?_eq_some_iff.mp hv).1
  rw [← hv]
  unfold stateRegister
  generalize number.toNat = k at hlen ⊢
  obtain hlt | rfl | hgt := Nat.lt_trichotomy k 0x0D
  · interval_cases k <;> rfl
  · cases s.env.stage <;> rfl
  · interval_cases k <;> rfl

/-! ## MEM_READ (R95; 20_memory.md R50) -/

section
variable {s : State} {code : BitVec 8} {index : Word32} (hf : s.status.fatal = false)
include hf

theorem exec_memRead :
    exec (.memRead code index) s = (Space.ofCode code).elim (raise .config s) fun space =>
      check .config (space.length ≤ index.toNat) s (respond ((memRead space index.toNat s).setWidth 64)) := by
  rw [exec, execMemRead, fatalGate_pass _ hf]
  cases Space.ofCode code <;> rfl

theorem exec_memRead_unknown (hcode : Space.ofCode code = none) :
    exec (.memRead code index) s = raise .config s := by
  rw [exec_memRead hf, hcode, Option.elim_none]

variable {space : Space} (hcode : Space.ofCode code = some space)
include hcode

theorem exec_memRead_outside (hi : space.length ≤ index.toNat) : exec (.memRead code index) s = raise .config s := by
  rw [exec_memRead hf, hcode, Option.elim_some, decide_eq_true hi, check_fail]

theorem exec_memRead_inside (hi : index.toNat < space.length) :
    exec (.memRead code index) s = respond ((Memory.read (s.memory space) index.toNat).setWidth 64) s := by
  rw [exec_memRead hf, hcode, Option.elim_some, decide_eq_false (Nat.not_le.mpr hi), check_pass, memRead]

end

theorem spaceOfCode_beyond {code : BitVec 8} (h : 2 < code.toNat) : Space.ofCode code = none := by
  unfold Space.ofCode
  split
  case h_4 => rfl
  all_goals omega

/-- Settles O21: the three spaces inside and outside their lengths, and the codes that are no space. -/
theorem memReadAnswersTheWord : Obligations.MemReadAnswersTheWord := by
  refine fun s code index hf => ⟨?_, ?_, ?_, ?_⟩
  · rintro rfl hi
    exact exec_memRead_inside (space := .phaser) hf rfl hi
  · rintro rfl hi
    exact exec_memRead_inside (space := .nwhite) hf rfl hi
  · rintro rfl hi
    exact exec_memRead_inside (space := .npink) hf rfl hi
  · rintro (hcode | ⟨rfl, hi⟩ | ⟨rfl | rfl, hi⟩)
    · exact exec_memRead_unknown hf (spaceOfCode_beyond hcode)
    · exact exec_memRead_outside (space := .phaser) hf rfl hi
    · exact exec_memRead_outside (space := .nwhite) hf rfl hi
    · exact exec_memRead_outside (space := .npink) hf rfl hi

/-! ## PARAM_WRITE and PARAM_READ (R97, R98) -/

theorem parameterNumber_of_lt {number : BitVec 8} (h : number.toNat < 28) :
    parameterNumber number = some ⟨number.toNat, h⟩ := dif_pos h

theorem parameterNumber_of_ge {number : BitVec 8} (h : 28 ≤ number.toNat) : parameterNumber number = none :=
  dif_neg (Nat.not_lt.mpr h)

section
variable {s : State} {number : BitVec 8} (hf : s.status.fatal = false)
include hf

theorem exec_paramRead :
    exec (.paramRead number) s =
      (parameterNumber number).elim (raise .config s) fun n => respond ((s.p n).setWidth 64) s := by
  rw [exec, execParamRead, fatalGate_pass _ hf]
  cases parameterNumber number <;> rfl

theorem exec_paramWrite (v : Word32) :
    exec (.paramWrite number v) s = (parameterNumber number).elim (raise .config s) fun n =>
      check .config (!legalParameter n v) s fun s => idleCheck s fun s => respond 0#64 (writeParameter n v s) := by
  rw [exec, execParamWrite, fatalGate_pass _ hf]
  cases parameterNumber number <;> rfl

end

/-- Settles O24: by whether there is a parameter with the number. -/
theorem paramReadAnswersTheRegister : Obligations.ParamReadAnswersTheRegister := by
  intro s number hf
  rw [exec_paramRead hf]
  exact ⟨fun h => by rw [parameterNumber_of_ge h]; rfl, fun h => by rw [parameterNumber_of_lt h]; rfl⟩

/-- Settles O23: the number, the value and the run are checked in this order. -/
theorem paramWriteWritesOneRegister : Obligations.ParamWriteWritesOneRegister := by
  intro s number v hf
  rw [exec_paramWrite hf]
  refine ⟨fun h => by rw [parameterNumber_of_ge h]; rfl, fun h => ?_⟩
  rw [parameterNumber_of_lt h, Option.elim_some]
  refine ⟨fun hillegal => ?_, fun hlegal hplaying => ?_, fun hlegal hidle => ?_⟩
  · rw [hillegal, Bool.not_false, check_fail, raise]
  · rw [hlegal, Bool.not_true, check_pass, idleCheck_playing _ hplaying, raise]
  · rw [hlegal, Bool.not_true, check_pass, idleCheck_pass _ hidle, respond, writeParameter]

end Sys2Proof.SystemCommands
end

section
/-!
The random-number generator (41_rng.md R110 to R117). The advance is three exclusive-ors of a word with its own shift, and
each of these can be undone.
-/

namespace Sys2Proof.RandomDraws

open Sys2Proof Sys2Proof.Machine Sys2Proof.Laws

/-! ## The advance (R112) -/

/-- A word that is its own right shift is zero: shifting made it smaller otherwise. -/
theorem eq_zero_of_ushiftRight_eq {w k : Nat} {z : BitVec w} (hk : 0 < k) (h : z >>> k = z) : z = 0#w := by
  by_contra hz
  have hpos : 0 < z.toNat := Nat.pos_of_ne_zero fun h0 => hz (BitVec.eq_of_toNat_eq (by simpa using h0))
  have hlt : (z >>> k).toNat < z.toNat := by
    rw [BitVec.toNat_ushiftRight, Nat.shiftRight_eq_div_pow]
    exact Nat.div_lt_self hpos (Nat.one_lt_two_pow hk.ne')
  exact absurd (congrArg BitVec.toNat h) hlt.ne

/-- A word that is its own left shift is zero: it is its own shift by any number of times `k`. -/
theorem eq_zero_of_shiftLeft_eq {w k : Nat} {z : BitVec w} (hk : 0 < k) (h : z <<< k = z) : z = 0#w := by
  have hmany (n : Nat) : z <<< (n * k) = z := by
    induction n with
    | zero => simp
    | succ n ih => rw [Nat.succ_mul, BitVec.shiftLeft_add, ih, h]
  rw [← hmany w]
  exact BitVec.shiftLeft_eq_zero (Nat.le_mul_of_pos_right w hk)

/-- A map that commutes with exclusive-or and fixes zero only can be undone after exclusive-or with its argument. -/
theorem xor_self_injective {w : Nat} {f : BitVec w → BitVec w} (hxor : ∀ x y, f (x ^^^ y) = f x ^^^ f y)
    (hfix : ∀ z, f z = z → z = 0#w) : Function.Injective fun x => x ^^^ f x := by
  intro x y h
  have h' : x ^^^ f x = y ^^^ f y := h
  have hsame : f (x ^^^ y) = x ^^^ y := by
    calc f (x ^^^ y)
      _ = x ^^^ (x ^^^ f x) ^^^ f y := by rw [hxor, ← BitVec.xor_assoc x, BitVec.xor_self, BitVec.zero_xor]
      _ = x ^^^ y := by rw [h', ← BitVec.xor_assoc, BitVec.xor_assoc _ (f y), BitVec.xor_self, BitVec.xor_zero]
  exact BitVec.xor_eq_zero_iff.mp (hfix _ hsame)

theorem xor_ushiftRight_injective {k : Nat} (hk : 0 < k) : Function.Injective fun x : Word64 => x ^^^ (x >>> k) :=
  xor_self_injective (fun _ _ => BitVec.ushiftRight_xor_distrib ..) fun _ => eq_zero_of_ushiftRight_eq hk

theorem xor_shiftLeft_injective {k : Nat} (hk : 0 < k) : Function.Injective fun x : Word64 => x ^^^ (x <<< k) :=
  xor_self_injective (fun _ _ => BitVec.shiftLeft_xor_distrib ..) fun _ => eq_zero_of_shiftLeft_eq hk

theorem xorshift_injective : Function.Injective xorshift :=
  (xor_ushiftRight_injective (k := 27) (by decide)).comp <|
    (xor_shiftLeft_injective (k := 25) (by decide)).comp (xor_ushiftRight_injective (k := 12) (by decide))

@[simp] theorem xorshift_zero : xorshift 0#64 = 0#64 := by decide

/-- Settles O26: the three lines as they stand; the advance is injective, and zero goes to zero. -/
theorem next64IsXorshiftStar : Obligations.Next64IsXorshiftStar := by
  refine ⟨?_, fun x y h => xorshift_injective h, fun s hs h0 => hs (xorshift_injective (h0.trans xorshift_zero.symm))⟩
  rintro s x1 x2 x3 rfl rfl rfl
  rfl

/-! ## The draws of the commands (R114 to R116) -/

/-- Settles O28: the three are draw commands that pass their checks. -/
theorem rngDrawsAdvanceOnce : Obligations.RngDrawsAdvanceOnce :=
  fun _ hf hs hp => ⟨drawCommand_pass _ hf hs hp, drawCommand_pass _ hf hs hp, drawCommand_pass _ hf hs hp⟩

/-! ## Seeding (R111; 42_pink_noise.md R121) -/

/-- The draws after an advance are the later draws. -/
theorem draw32_xorshift (x : Word64) (n : Nat) : draw32 (xorshift x) n = draw32 x (n + 1) := by
  rw [draw32, draw32, Function.iterate_succ_apply xorshift (n + 1)]

theorem redrawPink_eq (s : State) (i : Fin 5) :
    redrawPink s i = { s with
      rng := xorshift s.rng, pink := { s.pink with w := s.pink.w.set i (draw32 s.rng 0 % 13107#32) } } := rfl

theorem pinkConstruct_eq (s : State) :
    pinkConstruct s = { s with
      rng := xorshift^[5] s.rng
      pink := { key := 0#5, w := #v[draw32 s.rng 0 % 13107#32, draw32 s.rng 1 % 13107#32, draw32 s.rng 2 % 13107#32,
        draw32 s.rng 3 % 13107#32, draw32 s.rng 4 % 13107#32] } } := by
  have hw (u : Vector Word32 5) (a b c d e : Word32) :
      ((((u.set 0 a).set 1 b).set 2 c).set 3 d).set 4 e = #v[a, b, c, d, e] := by
    ext i hi
    interval_cases i <;> simp
  have hindices : List.finRange 5 = [0, 1, 2, 3, 4] := by decide
  simp only [pinkConstruct, hindices, List.foldl_cons, List.foldl_nil, redrawPink_eq, draw32_xorshift]
  rw [← hw s.pink.w]
  rfl

/-- Settles O27: the checks pass, and the pink construction begins from the seeded `rng_state`. -/
theorem rngSeedMakesFiveDraws : Obligations.RngSeedMakesFiveDraws := by
  rintro s seed r hf hp rfl
  rw [exec, execRngSeed, fatalGate_pass _ hf, idleCheck_pass _ hp, respond, seedRng, pinkConstruct_eq]
  rfl

end Sys2Proof.RandomDraws
end

section
/-!
Exact results of the binary formats (00_scope.md R11, R13). A value that a format can hold is what its rounded pattern
stands for, so an operation whose exact result the format can hold does not round.
-/

namespace Sys2Proof.ExactFloat

open Sys2Proof Sys2Proof.Machine

/-- The significands are twice the fractions: the hidden bit is clear or set. -/
theorem two_pow_prec {f : FloatFormat} (hprec : 1 ≤ f.prec) : 2 ^ f.prec = 2 * 2 ^ (f.prec - 1) := by
  rw [← Nat.pow_succ', Nat.succ_eq_add_one, Nat.sub_add_cancel hprec]

section
variable {f : FloatFormat} (hprec : 1 ≤ f.prec) (hwidth : f.prec ≤ f.width)
include hprec hwidth

/-- A pattern without a sign is put together from its exponent and its fraction, below the pattern of +infinity. -/
theorem unpack_of_fields {exponent fraction : Nat} (he : exponent < f.topExponent) (hf : fraction < 2 ^ (f.prec - 1)) :
    f.unpack (exponent * 2 ^ (f.prec - 1) + fraction) =
      .fin false (if exponent = 0 then fraction else (2 ^ (f.prec - 1) + fraction) * 2 ^ (exponent - 1)) := by
  have htop : exponent < 2 ^ (f.width - f.prec) := he.trans_le (Nat.sub_le _ _)
  have hdiv : (exponent * 2 ^ (f.prec - 1) + fraction) / 2 ^ (f.prec - 1) = exponent := by
    rw [Nat.mul_comm, Nat.mul_add_div (Nat.two_pow_pos _), Nat.div_eq_of_lt hf, Nat.add_zero]
  have hmod : (exponent * 2 ^ (f.prec - 1) + fraction) % 2 ^ (f.prec - 1) = fraction := by
    rw [Nat.mul_comm, Nat.mul_add_mod, Nat.mod_eq_of_lt hf]
  have hsign : (exponent * 2 ^ (f.prec - 1) + fraction).testBit (f.width - 1) = false := by
    apply Nat.testBit_lt_two_pow
    calc exponent * 2 ^ (f.prec - 1) + fraction
      _ < (exponent + 1) * 2 ^ (f.prec - 1) := by rw [Nat.succ_mul]; omega
      _ ≤ 2 ^ (f.width - f.prec) * 2 ^ (f.prec - 1) := Nat.mul_le_mul_right _ htop
      _ = 2 ^ (f.width - 1) := by rw [← Nat.pow_add]; congr 1; omega
  rw [FloatFormat.unpack, hsign, hdiv, hmod, Nat.mod_eq_of_lt htop]
  simp only [he.ne, if_false]
  split <;> rfl

/-- The pattern of `significand * 2^q` as rounding forms it: a carry out of the fraction goes to the exponent. -/
theorem unpack_of_significand {q significand : Nat} (hq : q + 1 < f.topExponent) (hs : significand < 2 ^ f.prec)
    (hnormal : q = 0 ∨ 2 ^ (f.prec - 1) ≤ significand) :
    f.unpack (q * 2 ^ (f.prec - 1) + significand) = .fin false (significand * 2 ^ q) := by
  have hdouble := two_pow_prec hprec
  by_cases hsub : significand < 2 ^ (f.prec - 1)
  · obtain rfl : q = 0 := hnormal.resolve_right (by omega)
    rw [unpack_of_fields hprec hwidth (by omega) hsub]
    simp
  · obtain ⟨fraction, rfl⟩ := Nat.exists_eq_add_of_le (Nat.le_of_not_lt hsub)
    rw [← Nat.add_assoc, ← Nat.succ_mul, unpack_of_fields hprec hwidth hq (by omega)]
    simp

end

theorem roundHalfEven_of_dvd {n d : Nat} (hd : 0 < d) (h : d ∣ n) : roundHalfEven n d = n / d := by
  have hmod : n % d = 0 := Nat.mod_eq_zero_of_dvd h
  simp only [roundHalfEven, hmod, Nat.mul_zero, hd, if_true]

/-- The exponent rounding gives the last bit of the significand of `v * 2^-scale`. -/
def lastBit (f : FloatFormat) (v : Nat) : Nat := Nat.log2 v - (f.prec - 1)

/-- The format holds `v * 2^-scale`: no bit of `v` is below the last one kept, and `v` is below the overflow. -/
structure Holds (f : FloatFormat) (v : Nat) : Prop where
  exact : 2 ^ lastBit f v ∣ v
  finite : lastBit f v + 1 < f.topExponent

/-- A significand that fits, at any scale below the overflow, is held. -/
theorem holds_of_significand {f : FloatFormat} (m e : Nat) (hm : m < 2 ^ f.prec)
    (hfinite : lastBit f (m * 2 ^ e) + 1 < f.topExponent) : Holds f (m * 2 ^ e) where
  exact := by
    rcases Nat.eq_zero_or_pos m with rfl | hpos
    · simp
    · have hlog : Nat.log2 (m * 2 ^ e) < f.prec + e := by
        rw [Nat.log2_lt (by positivity), Nat.pow_add]
        exact Nat.mul_lt_mul_of_pos_right hm (Nat.two_pow_pos e)
      exact (Nat.pow_dvd_pow 2 (by rw [lastBit]; omega)).mul_left m
  finite := hfinite

theorem lastBit_le_of_lt {f : FloatFormat} {v n : Nat} (h : v < 2 ^ n) : lastBit f v ≤ n - f.prec := by
  rcases Nat.eq_zero_or_pos v with rfl | hpos
  · simp [lastBit]
  · have hlog : Nat.log2 v < n := (Nat.log2_lt hpos.ne').mpr h
    rw [lastBit]
    omega

section
variable {f : FloatFormat} (hprec : 1 ≤ f.prec)
include hprec

theorem div_lastBit_lt (v : Nat) : v / 2 ^ lastBit f v < 2 ^ f.prec := by
  rw [Nat.div_lt_iff_lt_mul (Nat.two_pow_pos _), ← Nat.pow_add]
  refine Nat.lt_log2_self.trans_le (Nat.pow_le_pow_right (by decide) ?_)
  rw [lastBit]
  omega

theorem le_div_lastBit {v : Nat} (h : lastBit f v ≠ 0) : 2 ^ (f.prec - 1) ≤ v / 2 ^ lastBit f v := by
  have hv : v ≠ 0 := by
    rintro rfl
    simp [lastBit] at h
  rw [Nat.le_div_iff_mul_le (Nat.two_pow_pos _), ← Nat.pow_add]
  refine (Nat.pow_le_pow_right (by decide) ?_).trans (Nat.log2_self_le hv)
  rw [lastBit] at h ⊢
  omega

/-- The pattern of a value that the format holds lies below the next exponent but one. -/
theorem pattern_lt (v : Nat) :
    lastBit f v * 2 ^ (f.prec - 1) + v / 2 ^ lastBit f v < (lastBit f v + 2) * 2 ^ (f.prec - 1) := by
  have hlt := div_lastBit_lt hprec v
  have hdouble := two_pow_prec hprec
  rw [Nat.add_mul]
  omega

/-- Rounding a value that the format holds changes nothing. -/
theorem roundMagnitude_of_holds {v d : Nat} (hd : 0 < d) (h : Holds f v) :
    f.roundMagnitude (v * d) d = lastBit f v * 2 ^ (f.prec - 1) + v / 2 ^ lastBit f v := by
  have hround : roundHalfEven (v * d) (d * 2 ^ lastBit f v) = v / 2 ^ lastBit f v := by
    rw [Nat.mul_comm v, roundHalfEven_of_dvd (Nat.mul_pos hd (Nat.two_pow_pos _)) (Nat.mul_dvd_mul_left d h.exact),
      Nat.mul_div_mul_left _ _ hd]
  have hfinite : lastBit f v * 2 ^ (f.prec - 1) + v / 2 ^ lastBit f v ≤ f.infBits :=
    (pattern_lt hprec v).le.trans (Nat.mul_le_mul_right _ h.finite)
  rw [FloatFormat.roundMagnitude, Nat.mul_div_cancel v hd, ← lastBit, hround, min_eq_left hfinite]

theorem unpack_roundMagnitude {v d : Nat} (hwidth : f.prec ≤ f.width) (hd : 0 < d) (h : Holds f v) :
    f.unpack (f.roundMagnitude (v * d) d) = .fin false v := by
  rw [roundMagnitude_of_holds hprec hd h, unpack_of_significand hprec hwidth h.finite (div_lastBit_lt hprec v)
    (or_iff_not_imp_left.mpr (le_div_lastBit hprec)), Nat.div_mul_cancel h.exact]

end

/-! ## binary32 -/

/-- The word `x` holds `v * 2^-149` exactly: its value, and a bound of its pattern by the size of `v`. -/
structure Represents (x : F32) (v : Nat) : Prop where
  value : binary32.unpack x.toNat = .fin false v
  bound : x.toNat < (lastBit binary32 v + 2) * 2 ^ 23

theorem represents_round {v d : Nat} (hd : 0 < d) (h : Holds binary32 v) :
    Represents (BitVec.ofNat 32 (binary32.round false (v * d) d)) v := by
  have hprec : 1 ≤ binary32.prec := by decide
  have hfraction : binary32.prec - 1 = 23 := rfl
  have hround : binary32.round false (v * d) d = binary32.roundMagnitude (v * d) d := by
    rw [FloatFormat.round, FloatFormat.withSign, if_neg Bool.false_ne_true]
  have hlt : binary32.roundMagnitude (v * d) d < (lastBit binary32 v + 2) * 2 ^ 23 := by
    rw [roundMagnitude_of_holds hprec hd h, ← hfraction]
    exact pattern_lt hprec v
  have hfinite : lastBit binary32 v + 1 < 255 := h.finite
  have hnat : (BitVec.ofNat 32 (binary32.roundMagnitude (v * d) d)).toNat = binary32.roundMagnitude (v * d) d := by
    rw [BitVec.toNat_ofNat, Nat.mod_eq_of_lt (by omega)]
  rw [hround]
  exact ⟨hnat.symm ▸ unpack_roundMagnitude hprec (by decide) hd h, hnat.symm ▸ hlt⟩

/-- A binary32 product that the format holds is exact. -/
theorem mul32_represents {x y : F32} {m n v : Nat} (hx : binary32.unpack x.toNat = .fin false m)
    (hy : binary32.unpack y.toNat = .fin false n) (hv : m * n = v * 2 ^ binary32.scale) (h : Holds binary32 v) :
    Represents (mul32 x y) v := by
  have hmul : binary32.mul x.toNat y.toNat = binary32.round false (m * n) (2 ^ binary32.scale) := by
    rw [FloatFormat.mul, hx, hy]
    rfl
  rw [mul32, hmul, hv]
  exact represents_round (Nat.two_pow_pos _) h

/-- A significand of 24 bits at a scale below the overflow. -/
theorem holds_binary32 {m : Nat} (e : Nat) (hm : m < 2 ^ 24) (he : e ≤ 253) : Holds binary32 (m * 2 ^ e) := by
  refine holds_of_significand m e hm ?_
  have hlt : m * 2 ^ e < 2 ^ (24 + e) := by
    rw [Nat.pow_add]
    exact Nat.mul_lt_mul_of_pos_right hm (Nat.two_pow_pos e)
  have hlast : lastBit binary32 (m * 2 ^ e) ≤ 24 + e - 24 := lastBit_le_of_lt hlt
  change _ < 255
  omega

/-- An integer below `2^24` is a binary32 value. -/
theorem nat32_represents {n : Nat} (hn : n < 2 ^ 24) : Represents (nat32 n) (n * 2 ^ binary32.scale) := by
  have h := represents_round Nat.one_pos (holds_binary32 149 hn (by decide))
  rw [Nat.mul_one] at h
  exact h

end Sys2Proof.ExactFloat
end

section
/-!
The floating-point draw (41_rng.md R116): 24 bits of a draw at a scale that binary32 holds.
-/

namespace Sys2Proof.FloatDraw

open Sys2Proof Sys2Proof.Machine Sys2Proof.ExactFloat

theorem unpack_twoToMinus24 : binary32.unpack twoToMinus24.toNat = .fin false (2 ^ 125) := by decide +kernel

/-- The top 24 bits of a 32-bit draw. -/
theorem top24_toNat (x : Word32) : (x >>> 8).toNat = x.toNat / 2 ^ 8 := by
  rw [BitVec.toNat_ushiftRight, Nat.shiftRight_eq_div_pow]

theorem top24_lt (x : Word32) : x.toNat / 2 ^ 8 < 2 ^ 24 := by omega

/-- `NextFloat()` rounds neither in its conversion nor in its product. -/
theorem nextFloat_represents (s : State) :
    Represents (nextFloat s).1 ((draw32 s.rng 0).toNat / 2 ^ 8 * 2 ^ 125) := by
  have hk := top24_lt (draw32 s.rng 0)
  have hfloat : (nextFloat s).1 = mul32 (nat32 ((draw32 s.rng 0).toNat / 2 ^ 8)) twoToMinus24 := by
    rw [← top24_toNat]
    rfl
  rw [hfloat]
  exact mul32_represents (nat32_represents hk).value unpack_twoToMinus24 (Nat.mul_right_comm ..)
    (holds_binary32 125 hk (by decide))

/-- Settles O29: a draw of 24 bits is at most `2^24 - 1`, so its pattern has at most the exponent of 0.5. -/
theorem nextFloatIsExact : Obligations.NextFloatIsExact := by
  intro s
  have h := nextFloat_represents s
  have hk := top24_lt (draw32 s.rng 0)
  have hlast : lastBit binary32 ((draw32 s.rng 0).toNat / 2 ^ 8 * 2 ^ 125) ≤ 149 - 24 :=
    lastBit_le_of_lt (by omega)
  have hbound := h.bound
  exact ⟨h.value, by omega⟩

end Sys2Proof.FloatDraw
end

section
/-!
The degenerate state (41_rng.md R117): with `rng_state` and the sub-generators zero every draw is zero, and a refresh
writes the word of that draw everywhere.
-/

namespace Sys2Proof.DegenerateState

open Sys2Proof Sys2Proof.Machine Sys2Proof.Laws Sys2Proof.Noninterference

/-- `rng_state` and the five sub-generators are zero. -/
structure Degenerate (s : State) : Prop where
  rng : s.rng = 0#64
  pink : s.pink.w = #v[0#32, 0#32, 0#32, 0#32, 0#32]

/-! ## Draws -/

theorem Degenerate.next64 {s : State} (h : Degenerate s) : next64 s = (0#64, s) := by
  have hrng : xorshift s.rng = s.rng := by rw [h.rng, RandomDraws.xorshift_zero]
  simp only [Machine.next64, hrng]
  rw [h.rng, BitVec.zero_mul, ← h.rng]

theorem Degenerate.next32 {s : State} (h : Degenerate s) : next32 s = (0#32, s) := by
  rw [Machine.next32, h.next64, BitVec.extractLsb'_zero]

theorem Degenerate.nextFloat {s : State} (h : Degenerate s) : nextFloat s = (0#32, s) := by
  have hzero : mul32 (nat32 ((0#32 : Word32) >>> 8).toNat) twoToMinus24 = 0#32 := by decide +kernel
  rw [Machine.nextFloat, h.next32, hzero]

theorem Degenerate.redrawPink {s : State} (h : Degenerate s) (i : Fin 5) : Degenerate (redrawPink s i) := by
  have hw : s.pink.w.set i 0#32 = s.pink.w := by
    rw [h.pink]
    decide +revert
  rw [Machine.redrawPink, h.next32, BitVec.zero_umod, hw]
  exact ⟨h.rng, h.pink⟩

theorem Degenerate.pinkWord {s : State} (h : Degenerate s) (i : Fin 5) : s.pink.w[i] = 0#32 := by
  rw [h.pink]
  decide +revert

/-- A sub-generator adds zero to the sum, redrawn or not. -/
theorem Degenerate.pinkTerm {r : Word32 × State} (h : Degenerate r.2) (hsum : r.1 = 0#32) (diff : BitVec 5)
    (i : Fin 5) : (pinkTerm diff r i).1 = 0#32 ∧ Degenerate (pinkTerm diff r i).2 := by
  have hstate : Degenerate (Machine.pinkTerm diff r i).2 := by
    simp only [Machine.pinkTerm]
    split
    · exact h.redrawPink i
    · exact h
  have hterm : (Machine.pinkTerm diff r i).1 = r.1 + (Machine.pinkTerm diff r i).2.pink.w[i] := rfl
  exact ⟨by rw [hterm, hsum, hstate.pinkWord]; rfl, hstate⟩

theorem Degenerate.pinkNextValue {s : State} (h : Degenerate s) :
    (pinkNextValue s).1 = 0#32 ∧ Degenerate (pinkNextValue s).2 :=
  List.foldlRecOn (motive := fun r : Word32 × State => r.1 = 0#32 ∧ Degenerate r.2) _ _ ⟨rfl, h.rng, h.pink⟩
    fun _ ⟨hsum, hr⟩ i _ => hr.pinkTerm hsum _ i

theorem Degenerate.pinkNextFloat {s : State} (h : Degenerate s) :
    (pinkNextFloat s).1 = 0#32 ∧ Degenerate (pinkNextFloat s).2 := by
  obtain ⟨hvalue, hstate⟩ := h.pinkNextValue
  have hzero : div32 (nat32 (0#32 : Word32).toNat) (nat32 Config.pinkRange.toNat) = 0#32 := by decide +kernel
  rw [Machine.pinkNextFloat, hvalue, hzero]
  exact ⟨rfl, hstate⟩

/-! ## Refreshes -/

/-- A word that is not +0.0 reads back as written, also in a memory that is not canonical. -/
theorem read_write_of_ne_zero (m : Memory) (a : Nat) {v : Word32} (hv : v ≠ 0#32) :
    Memory.read (Memory.write m a v) a = v := by
  induction m with
  | nil => simp [Memory.write, hv]
  | cons p rest ih =>
    unfold Memory.write
    simp only [hv, if_false]
    split_ifs with hlt heq
    · exact read_cons_self ..
    · exact read_cons_self ..
    · exact (read_cons_ne p.2 _ heq).trans ih

theorem read_fill_of_ne_zero {n a : Nat} {v : Nat → Word32} {c : Word32} (hc : c ≠ 0#32) (hv : ∀ i, v i = c)
    (m : Memory) (ha : a < n) : Memory.read (fill n v m) a = c := by
  induction n with
  | zero => omega
  | succ n ih =>
    rw [fill_succ, hv]
    by_cases han : a = n
    · rw [han, read_write_of_ne_zero _ _ hc]
    · rw [read_write_other _ _ han, ih (by omega)]

theorem bankWord_zero : bankWord 0#32 = 0xBF800000#32 := by decide +kernel

/-- A draw of the degenerate state: zero, and the state stays degenerate. -/
def DrawsZero (draw : State → F32 × State) : Prop :=
  ∀ s, Degenerate s → (draw s).1 = 0#32 ∧ Degenerate (draw s).2

section
variable {draw : State → F32 × State} {s : State} (hzero : DrawsZero draw) (h : Degenerate s)
include hzero h

theorem DrawsZero.afterDraws (n : Nat) : Degenerate (afterDraws draw n s) := by
  induction n with
  | zero => exact h
  | succ n ih =>
    rw [afterDraws_succ]
    exact (hzero _ ih).2

theorem DrawsZero.drawnWord (i : Nat) : drawnWord draw s i = 0xBF800000#32 := by
  rw [Noninterference.drawnWord, (hzero _ (hzero.afterDraws h i)).1, bankWord_zero]

variable (hdraw : DrawsFromNoise draw) (space : Space) (n : Nat)
include hdraw

theorem DrawsZero.refreshBank : Degenerate (refreshBank space draw n s) := by
  have hstate := hzero.afterDraws h n
  rw [refreshBank_eq_fill hdraw]
  have hout := setMemory_outsideNoise space (fill n (Noninterference.drawnWord draw s) (s.memory space))
  exact ⟨(hout.rng _).trans hstate.rng, (congrArg _ (hout.pink _)).trans hstate.pink⟩

theorem DrawsZero.memRead_refreshBank {index : Nat} (hindex : index < n) :
    memRead space index (Noninterference.refreshBank space draw n s) = 0xBF800000#32 := by
  rw [refreshBank_eq_fill hdraw, memRead, memory_setMemory]
  exact read_fill_of_ne_zero (by decide) (hzero.drawnWord h) _ hindex

end

theorem nextFloat_drawsZero : DrawsZero nextFloat := fun _ h => by
  rw [h.nextFloat]
  exact ⟨rfl, h⟩

theorem pinkNextFloat_drawsZero : DrawsZero pinkNextFloat := fun _ h => h.pinkNextFloat

theorem Degenerate.refreshWhite {s : State} (h : Degenerate s) : Degenerate (refreshWhite s) := by
  rw [refreshWhite_eq_refreshBank]
  exact nextFloat_drawsZero.refreshBank h nextFloat_drawsFromNoise _ _

theorem Degenerate.refreshPink {s : State} (h : Degenerate s) : Degenerate (refreshPink s) := by
  rw [refreshPink_eq_refreshBank]
  exact pinkNextFloat_drawsZero.refreshBank h pinkNextFloat_drawsFromNoise _ _

theorem Degenerate.memRead_refreshWhite {s : State} (h : Degenerate s) {index : Nat} (hi : index < Config.noiseLen) :
    memRead .nwhite index (Machine.refreshWhite s) = 0xBF800000#32 := by
  rw [refreshWhite_eq_refreshBank]
  exact nextFloat_drawsZero.memRead_refreshBank h nextFloat_drawsFromNoise _ _ hi

theorem Degenerate.memRead_refreshPink {s : State} (h : Degenerate s) {index : Nat} (hi : index < Config.noiseLen) :
    memRead .npink index (Machine.refreshPink s) = 0xBF800000#32 := by
  rw [refreshPink_eq_refreshBank]
  exact pinkNextFloat_drawsZero.memRead_refreshBank h pinkNextFloat_drawsFromNoise _ _ hi

theorem memRead_nwhite_refreshPink (s : State) (index : Nat) :
    memRead .nwhite index (refreshPink s) = memRead .nwhite index s := by
  rw [refreshPink_state]
  rfl

/-- Settles O30: the white refresh leaves a degenerate state to the pink one, which leaves the white bank alone. -/
theorem degenerateStateDrawsZero : Obligations.DegenerateStateDrawsZero := by
  intro s hrng hpink
  have h : Degenerate s := ⟨hrng, hpink⟩
  have hwhite := h.refreshWhite
  refine ⟨h.next64, congrArg Prod.fst h.nextFloat, hwhite.refreshPink.rng, fun index hi => ⟨?_, ?_⟩⟩
  · rw [memRead_nwhite_refreshPink]
    exact h.memRead_refreshWhite hi
  · exact hwhite.memRead_refreshPink hi

end Sys2Proof.DegenerateState
end

section
/-!
The draws of each operation (70_reset_and_hazards.md R242): how often one advances `rng_state`, from the counter bits of
one pink value up to the phase wraps of a run.
-/

namespace Sys2Proof.DrawCounts

open Sys2Proof Sys2Proof.Machine Sys2Proof.Laws Sys2Proof.Noninterference

/-! ## Pink values (42_pink_noise.md R122) -/

/-- Sub-generator `i` takes a draw: its counter bit is one of the bits that flip. -/
def flips (diff : BitVec 5) (i : Fin 5) : Bool := diff.getLsbD i

theorem pinkTerm_of_flips {diff : BitVec 5} {i : Fin 5} (h : flips diff i = true) (r : Word32 × State) :
    (pinkTerm diff r i).2 = redrawPink r.2 i := if_pos h

theorem pinkTerm_of_not_flips {diff : BitVec 5} {i : Fin 5} (h : ¬ flips diff i = true) (r : Word32 × State) :
    (pinkTerm diff r i).2 = r.2 := if_neg h

theorem redrawPink_key (s : State) (i : Fin 5) : (redrawPink s i).pink.key = s.pink.key := by rw [redrawPink]

theorem redrawPink_rng (s : State) (i : Fin 5) : (redrawPink s i).rng = xorshift s.rng := by rw [redrawPink_state]

theorem pinkTerm_key (diff : BitVec 5) (r : Word32 × State) (i : Fin 5) :
    (pinkTerm diff r i).2.pink.key = r.2.pink.key := by
  by_cases h : flips diff i = true
  · rw [pinkTerm_of_flips h, redrawPink_key]
  · rw [pinkTerm_of_not_flips h]

theorem foldl_pinkTerm_key (diff : BitVec 5) (l : List (Fin 5)) (r : Word32 × State) :
    (l.foldl (pinkTerm diff) r).2.pink.key = r.2.pink.key := by
  induction l generalizing r with
  | nil => rfl
  | cons i l ih => rw [List.foldl_cons, ih, pinkTerm_key]

/-- One draw for each bit of `diff` that is set. -/
theorem foldl_pinkTerm_rng (diff : BitVec 5) (l : List (Fin 5)) (r : Word32 × State) :
    (l.foldl (pinkTerm diff) r).2.rng = xorshift^[l.countP (flips diff)] r.2.rng := by
  induction l generalizing r with
  | nil => rfl
  | cons i l ih =>
    rw [List.foldl_cons, ih]
    by_cases h : flips diff i = true
    · rw [pinkTerm_of_flips h, redrawPink_rng, List.countP_cons_of_pos h, Function.iterate_succ_apply]
    · rw [pinkTerm_of_not_flips h, List.countP_cons_of_neg h]

/-- The counter bits that change when one is added: the trailing ones and the bit above them. -/
theorem countP_flips_eq_pinkDraws :
    ∀ key : BitVec 5, (List.finRange 5).countP (flips (key ^^^ (key + 1#5))) = pinkDraws key := by
  decide

theorem pinkNextValue_key (s : State) : (pinkNextValue s).2.pink.key = s.pink.key + 1#5 := by
  rw [pinkNextValue, foldl_pinkTerm_key]

theorem pinkNextValue_rng (s : State) : (pinkNextValue s).2.rng = xorshift^[pinkDraws s.pink.key] s.rng := by
  rw [pinkNextValue, foldl_pinkTerm_rng, countP_flips_eq_pinkDraws]

/-! ## Noise banks (45_synth_datapath.md R182) -/

theorem refreshBank_rng {draw : State → F32 × State} (hdraw : DrawsFromNoise draw) (space : Space) (n : Nat)
    (s : State) : (refreshBank space draw n s).rng = (afterDraws draw n s).rng := by
  rw [refreshBank_eq_fill hdraw]
  exact (setMemory_outsideNoise space _).rng _

theorem afterDraws_nextFloat_rng (n : Nat) (s : State) : (afterDraws nextFloat n s).rng = xorshift^[n] s.rng := by
  induction n with
  | zero => rfl
  | succ n ih => rw [afterDraws_succ, Function.iterate_succ_apply', ← ih, nextFloat_state]

theorem refreshWhite_rng (s : State) : (refreshWhite s).rng = xorshift^[32] s.rng := by
  rw [refreshWhite_eq_refreshBank, refreshBank_rng nextFloat_drawsFromNoise, afterDraws_nextFloat_rng,
    Config.noiseLen]

/-- The draws of `n` pink values from the counter value `key`. -/
def pinkDrawsFrom : Nat → BitVec 5 → Nat
  | 0, _ => 0
  | n + 1, key => pinkDrawsFrom n (key + 1#5) + pinkDraws key

/-- One cycle of the counter: it comes through all its 32 values, wherever it begins (42_pink_noise.md R126). -/
theorem pinkDrawsFrom_cycle : ∀ key : BitVec 5, pinkDrawsFrom 32 key = 62 := by decide

theorem afterDraws_pinkNextFloat_rng (n : Nat) (s : State) :
    (afterDraws pinkNextFloat n s).rng = xorshift^[pinkDrawsFrom n s.pink.key] s.rng := by
  induction n generalizing s with
  | zero => rw [pinkDrawsFrom, Function.iterate_zero_apply, afterDraws, Function.iterate_zero_apply]
  | succ n ih =>
    have hvalue : (pinkNextFloat s).2 = (pinkNextValue s).2 := by rw [pinkNextFloat]
    have hfirst : afterDraws pinkNextFloat (n + 1) s = afterDraws pinkNextFloat n (pinkNextFloat s).2 :=
      Function.iterate_succ_apply _ n s
    rw [hfirst, ih, hvalue, pinkNextValue_key, pinkNextValue_rng, ← Function.iterate_add_apply, pinkDrawsFrom]

theorem refreshPink_rng (s : State) : (refreshPink s).rng = xorshift^[62] s.rng := by
  rw [refreshPink_eq_refreshBank, refreshBank_rng pinkNextFloat_drawsFromNoise, afterDraws_pinkNextFloat_rng,
    Config.noiseLen, pinkDrawsFrom_cycle]

/-- SYNTH_START fills the white bank and then the pink one. -/
theorem startRun_rng (s : State) : (startRun s).rng = xorshift^[94] s.rng := by
  have hstart : (startRun s).rng = (refreshPink (refreshWhite (prepareRun s))).rng := by rw [startRun_eq, beginRun]
  rw [hstart, refreshPink_rng, refreshWhite_rng, ← Function.iterate_add_apply]
  rfl

/-! ## Phase wraps (45_synth_datapath.md R181) -/

theorem wrapRefresh_rng (s : State) : (wrapRefresh s).rng = xorshift^[wrapDraws (s.p 0)] s.rng := by
  by_cases hwhite : s.p 0 = 3#32
  · have hwrap : wrapRefresh s = refreshWhite s := by rw [wrapRefresh, hwhite]; rfl
    rw [hwrap, refreshWhite_rng, hwhite]
    rfl
  · by_cases hpink : s.p 0 = 5#32
    · have hwrap : wrapRefresh s = refreshPink s := by rw [wrapRefresh, hpink]; rfl
      rw [hwrap, refreshPink_rng, hpink]
      rfl
    · obtain ⟨-, -, -, hrng⟩ := wrapRefresh_kept s
      rw [hrng hwhite hpink, wrapDraws, if_neg hwhite, if_neg hpink]
      rfl

/-- `y` is `x` after the draws of at most `limit` wraps of the wave type. -/
def AfterWraps (wave : Word32) (limit : Nat) (x y : Word64) : Prop :=
  ∃ wraps, wraps ≤ limit ∧ y = xorshift^[wraps * wrapDraws wave] x

section
variable {wave : Word32} {m n : Nat} {x y z : Word64}

theorem afterWraps_of_eq (h : y = x) : AfterWraps wave n x y :=
  ⟨0, Nat.zero_le n, by rw [Nat.zero_mul]; exact h⟩

theorem AfterWraps.trans (h : AfterWraps wave m x y) (h' : AfterWraps wave n y z) : AfterWraps wave (m + n) x z := by
  obtain ⟨a, ha, rfl⟩ := h
  obtain ⟨b, hb, rfl⟩ := h'
  exact ⟨b + a, by omega, by rw [Nat.add_mul, Function.iterate_add_apply]⟩

end

theorem advancePhase_rng (s : State) : AfterWraps (s.p 0) 1 s.rng (advancePhase s).rng := by
  simp only [advancePhase]
  split
  · exact ⟨1, le_rfl, by rw [wrapRefresh_rng, Nat.one_mul]; rfl⟩
  · exact afterWraps_of_eq rfl

theorem subSample_rng (r : F32 × State) : AfterWraps (r.2.p 0) 1 r.2.rng (subSample r).2.rng :=
  advancePhase_rng r.2

theorem subSample_wave (r : F32 × State) : (subSample r).2.p 0 = r.2.p 0 := by
  rw [State.p, subSample_state]
  rfl

/-- A sub-sample has at most one wrap. -/
theorem subSampleLoop_rng (n : Nat) (r : F32 × State) :
    AfterWraps (r.2.p 0) n r.2.rng (subSampleLoop n r).2.rng := by
  induction n generalizing r with
  | zero => exact afterWraps_of_eq rfl
  | succ n ih =>
    have hrest := ih (subSample r)
    rw [subSample_wave] at hrest
    rw [subSampleLoop, Nat.add_comm]
    exact (subSample_rng r).trans hrest

/-! ## The iteration (44_synth_control.md R160) -/

/-- Between `s` and `t` a run has kept the parameters, appended samples, and drawn for at most eight wraps a sample. -/
structure Ran (s t : State) : Prop extends DataEffects.Extends s t where
  seeded : t.status.seeded = s.status.seeded
  rng : AfterWraps (s.p 0) (8 * (t.acc.length - s.acc.length)) s.rng t.rng

theorem ran_of_rng_eq {s t : State} (h : DataEffects.Extends s t) (hseeded : t.status.seeded = s.status.seeded)
    (hrng : t.rng = s.rng) : Ran s t :=
  { h with seeded := hseeded, rng := afterWraps_of_eq hrng }

theorem Ran.refl (s : State) : Ran s s := ran_of_rng_eq (.refl s) rfl rfl

theorem Ran.trans {s t u : State} (h : Ran s t) (h' : Ran t u) : Ran s u where
  toExtends := h.toExtends.trans h'.toExtends
  seeded := h'.seeded.trans h.seeded
  rng := by
    have hwave : t.p 0 = s.p 0 := by rw [State.p, h.params, State.p]
    have hfirst := h.acc.length_le
    have hsecond := h'.acc.length_le
    have hsum : 8 * (u.acc.length - s.acc.length) =
        8 * (t.acc.length - s.acc.length) + 8 * (u.acc.length - t.acc.length) := by omega
    rw [hsum]
    exact h.rng.trans (hwave ▸ h'.rng)

theorem repeatStep_ran (s : State) : Ran s (repeatStep s) := by
  refine ran_of_rng_eq (DataEffects.repeatStep_extends s) ?_ ?_ <;> rw [repeatStep_state]

theorem arpeggioStep_ran (s : State) : Ran s (arpeggioStep s) :=
  ran_of_rng_eq (DataEffects.arpeggioStep_extends s) rfl rfl

theorem slideStep_ran (s : State) : Ran s (slideStep s) := by
  refine ran_of_rng_eq (DataEffects.slideStep_extends s) ?_ (by rw [slideStep_state])
  rcases slideStep_status s with hst | hst <;> rw [hst]

theorem vibratoStep_ran (s : State) : Ran s (vibratoStep s) := by
  refine ran_of_rng_eq (DataEffects.vibratoStep_extends s) ?_ ?_ <;> rw [vibratoStep_state]

theorem rampStep_ran (s : State) : Ran s (rampStep s) := ran_of_rng_eq (DataEffects.rampStep_extends s) rfl rfl

theorem stageStep_seeded (s : State) : (stageStep s).status.seeded = s.status.seeded := by
  simp only [stageStep]
  split <;> rfl

theorem stageStep_ran (s : State) : Ran s (stageStep s) :=
  ran_of_rng_eq (DataEffects.stageStep_extends s) (stageStep_seeded s) (by rw [stageStep_state])

theorem volumeStep_ran (s : State) : Ran s (volumeStep s) :=
  ran_of_rng_eq (DataEffects.volumeStep_extends s) rfl rfl

theorem phaserOffsetStep_ran (s : State) : Ran s (phaserOffsetStep s) :=
  ran_of_rng_eq (DataEffects.phaserOffsetStep_extends s) rfl rfl

/-- The one sample of steps 8 and 9 has eight sub-samples. -/
theorem sampleStep_ran (s : State) : Ran s (sampleStep s) where
  toExtends := DataEffects.sampleStep_extends s
  seeded := by rw [sampleStep_status]
  rng := by
    have hone : (sampleStep s).acc.length - s.acc.length = 1 := by
      rw [sampleStep_acc, List.length_append, List.length_singleton, Nat.add_sub_cancel_left]
    rw [hone]
    exact subSampleLoop_rng 8 (0#32, s)

theorem unlessEnded_ran {rest : State → State} (hrest : ∀ s, Ran s (rest s)) (s : State) :
    Ran s (unlessEnded rest s) := by
  unfold unlessEnded
  split
  · exact hrest s
  · exact .refl s

theorem iteration_ran (s : State) : Ran s (iteration s) := by
  unfold iteration
  split
  · exact ran_of_rng_eq ⟨rfl, List.prefix_rfl⟩ rfl rfl
  · have hcontrol : Ran s (slideStep (arpeggioStep (repeatStep s))) :=
      (repeatStep_ran s).trans <| (arpeggioStep_ran _).trans (slideStep_ran _)
    have hramps (t : State) : Ran t (stageStep (rampStep (vibratoStep t))) :=
      (vibratoStep_ran t).trans <| (rampStep_ran _).trans (stageStep_ran _)
    have houtput (t : State) : Ran t (sampleStep (phaserOffsetStep (volumeStep t))) :=
      (volumeStep_ran t).trans <| (phaserOffsetStep_ran _).trans (sampleStep_ran _)
    exact hcontrol.trans <| unlessEnded_ran (fun t => (hramps t).trans (unlessEnded_ran houtput _)) _

theorem runLoop_ran (n : Nat) (s : State) : Ran s (runLoop n s) := by
  induction n generalizing s with
  | zero => exact .refl s
  | succ n ih =>
    unfold runLoop
    split
    · exact (iteration_ran s).trans (ih _)
    · exact .refl s

end Sys2Proof.DrawCounts
end

section
/-!
What a command does to the random-number generator (41_rng.md R110): a refused command nothing, an accepted one its own
draws. A command's checks, its responses and its draws have one lemma each, and every command is put together from them.
-/

namespace Sys2Proof.CommandDraws

open Sys2Proof Sys2Proof.Machine Sys2Proof.Laws Sys2Proof.DrawCounts

/-- With the response `r`, the command `i` went from `s` to `t` by its own draws only. -/
structure OwnDraws (i : Instr) (s t : State) (r : Response) : Prop where
  seeded : t.status.seeded = s.status.seeded
  refused : r.err ≠ 0#4 → t.rng = s.rng
  accepted : r.err = 0#4 → ∃ n, drawsOf i s (t.acc.length - s.acc.length) n ∧ t.rng = xorshift^[n] s.rng

/-- The answer `a` to the command `i` in `s` comes with draws of the command only. -/
def DrawsOwn (i : Instr) (s : State) (a : Answer) : Prop :=
  ∀ t r, a = .next t → t.ports.rsp = some r → OwnDraws i s t r

section
variable {i : Instr} {s : State}

theorem drawsOwn_raise (e : ErrorCode) : DrawsOwn i s (raise e s) := by
  intro t r ht hr
  obtain rfl := raise_next ht
  obtain rfl : { err := e.code, data := 0#64 } = r := Option.some.inj hr
  exact { seeded := rfl, refused := fun _ => rfl, accepted := fun h => absurd h (code_ne_zero e) }

theorem drawsOwn_respond {v : Word64} {u : State} (hseeded : u.status.seeded = s.status.seeded)
    (hdraws : ∃ n, drawsOf i s (u.acc.length - s.acc.length) n ∧ u.rng = xorshift^[n] s.rng) :
    DrawsOwn i s (respond v u) := by
  intro t r ht hr
  obtain rfl := respond_next ht
  obtain rfl : { err := 0#4, data := v } = r := Option.some.inj hr
  exact { seeded := hseeded, refused := fun h => absurd rfl h, accepted := fun _ => hdraws }

/-- The answer of a command that does not draw. -/
theorem drawsOwn_respond_quiet {v : Word64} {u : State} (hquiet : ∀ k, drawsOf i s k 0)
    (hseeded : u.status.seeded = s.status.seeded) (hrng : u.rng = s.rng) : DrawsOwn i s (respond v u) :=
  drawsOwn_respond hseeded ⟨0, hquiet _, hrng⟩

theorem drawsOwn_check {e : ErrorCode} {bad : Bool} {rest : State → Answer} (hrest : DrawsOwn i s (rest s)) :
    DrawsOwn i s (check e bad s rest) := by
  cases bad with
  | true => exact drawsOwn_raise e
  | false => exact hrest

theorem drawsOwn_fatalGate {rest : State → Answer} (hrest : DrawsOwn i s (rest s)) :
    DrawsOwn i s (fatalGate s rest) := drawsOwn_check hrest

theorem drawsOwn_idleCheck {rest : State → Answer} (hrest : DrawsOwn i s (rest s)) :
    DrawsOwn i s (idleCheck s rest) := drawsOwn_check hrest

theorem drawsOwn_seededGate {rest : State → Answer} (hrest : DrawsOwn i s (rest s)) :
    DrawsOwn i s (seededGate s rest) := drawsOwn_check hrest

theorem drawsOwn_drawCommand {draw : State → Word64 × State} {n : Nat} (hdraws : ∀ k, drawsOf i s k n)
    (hseeded : (draw s).2.status.seeded = s.status.seeded) (hrng : (draw s).2.rng = xorshift^[n] s.rng) :
    DrawsOwn i s (drawCommand draw s) :=
  drawsOwn_fatalGate <| drawsOwn_seededGate <| drawsOwn_idleCheck <| drawsOwn_respond hseeded ⟨n, hdraws _, hrng⟩

end

/-! ## The commands -/

section
variable (s : State)

/-- A command that answers `v` behind the fatal gate and does nothing else. -/
theorem gated_drawsOwn {i : Instr} (hquiet : ∀ k, drawsOf i s k 0) (v : State → Word64) :
    DrawsOwn i s (fatalGate s fun s => respond (v s) s) :=
  drawsOwn_fatalGate (drawsOwn_respond_quiet hquiet rfl rfl)

theorem execErrClear_drawsOwn : DrawsOwn .errClear s (execErrClear s) :=
  drawsOwn_fatalGate (drawsOwn_respond_quiet (fun _ => rfl) rfl rfl)

theorem execStateRead_drawsOwn (number : BitVec 8) : DrawsOwn (.stateRead number) s (execStateRead number s) := by
  refine drawsOwn_fatalGate ?_
  split
  · exact drawsOwn_raise _
  · exact drawsOwn_respond_quiet (fun _ => rfl) rfl rfl

theorem execMemRead_drawsOwn (code : BitVec 8) (index : Word32) :
    DrawsOwn (.memRead code index) s (execMemRead code index s) := by
  refine drawsOwn_fatalGate ?_
  split
  · exact drawsOwn_raise _
  · exact drawsOwn_check (drawsOwn_respond_quiet (fun _ => rfl) rfl rfl)

theorem execParamWrite_drawsOwn (number : BitVec 8) (v : Word32) :
    DrawsOwn (.paramWrite number v) s (execParamWrite number v s) := by
  refine drawsOwn_fatalGate ?_
  split
  · exact drawsOwn_raise _
  · exact drawsOwn_check <| drawsOwn_idleCheck <| drawsOwn_respond_quiet (fun _ => rfl) rfl rfl

theorem execParamRead_drawsOwn (number : BitVec 8) : DrawsOwn (.paramRead number) s (execParamRead number s) := by
  refine drawsOwn_fatalGate ?_
  split
  · exact drawsOwn_raise _
  · exact drawsOwn_respond_quiet (fun _ => rfl) rfl rfl

theorem execAccClear_drawsOwn : DrawsOwn .accClear s (execAccClear s) :=
  drawsOwn_fatalGate <| drawsOwn_idleCheck <| drawsOwn_respond_quiet (fun _ => rfl) rfl rfl

theorem execAccAppend_drawsOwn (v : F32) : DrawsOwn (.accAppend v) s (execAccAppend v s) :=
  drawsOwn_fatalGate <| drawsOwn_idleCheck <| drawsOwn_check <| drawsOwn_respond_quiet (fun _ => rfl) rfl rfl

theorem execAccScale_drawsOwn (f : F32) : DrawsOwn (.accScale f) s (execAccScale f s) :=
  drawsOwn_fatalGate <| drawsOwn_idleCheck <| drawsOwn_respond_quiet (fun _ => rfl) rfl rfl

theorem execAccRead_drawsOwn (index : Word32) : DrawsOwn (.accRead index) s (execAccRead index s) := by
  refine drawsOwn_fatalGate ?_
  split
  · exact drawsOwn_raise _
  · exact drawsOwn_respond_quiet (fun _ => rfl) rfl rfl

theorem execAccReadPcm_drawsOwn (format : BitVec 8) (index : Word32) :
    DrawsOwn (.accReadPcm format index) s (execAccReadPcm format index s) := by
  refine drawsOwn_fatalGate ?_
  split
  · exact drawsOwn_raise _
  · split
    · exact drawsOwn_raise _
    · exact drawsOwn_respond_quiet (fun _ => rfl) rfl rfl

theorem execAccStream_drawsOwn (format : BitVec 8) : DrawsOwn (.accStream format) s (execAccStream format s) := by
  refine drawsOwn_fatalGate ?_
  split
  · exact drawsOwn_raise _
  · exact drawsOwn_respond_quiet (fun _ => rfl) rfl rfl

theorem pinkNextValue_seeded : (pinkNextValue s).2.status.seeded = s.status.seeded := by rw [pinkNextValue_state]

theorem startRun_seeded : (startRun s).status.seeded = s.status.seeded := by rw [Noninterference.startRun_status]

theorem execSynthStart_drawsOwn : DrawsOwn .synthStart s (execSynthStart s) :=
  drawsOwn_fatalGate <| drawsOwn_seededGate <| drawsOwn_respond (startRun_seeded s) ⟨94, rfl, startRun_rng s⟩

/-- SYNTH_STEP and SYNTH_RUN draw as the iterations they make. -/
theorem drawsOwn_respond_ran {i : Instr} (hi : i = .synthStep ∨ i = .synthRun) {u : State} (h : Ran s u)
    (v : Word64) : DrawsOwn i s (respond v u) := by
  obtain ⟨wraps, hle, hrng⟩ := h.rng
  refine drawsOwn_respond h.seeded ⟨wraps * wrapDraws (s.p 0), ?_, hrng⟩
  rcases hi with rfl | rfl <;> exact ⟨wraps, hle, rfl⟩

theorem execSynthStep_drawsOwn : DrawsOwn .synthStep s (execSynthStep s) := by
  refine drawsOwn_fatalGate ?_
  split
  · exact drawsOwn_respond_ran s (.inl rfl) (iteration_ran s) _
  · exact drawsOwn_respond_ran s (.inl rfl) (.refl s) _

theorem execSynthRun_drawsOwn : DrawsOwn .synthRun s (execSynthRun s) :=
  drawsOwn_fatalGate (drawsOwn_respond_ran s (.inr rfl) (runLoop_ran _ s) _)

theorem exec_drawsOwn {i : Instr} (hreset : i ≠ .reset) (hseed : ∀ seed, i ≠ .rngSeed seed) :
    DrawsOwn i s (exec i s) := by
  cases i with
  | reset => exact absurd rfl hreset
  | rngSeed seed => exact absurd rfl (hseed seed)
  | nop => exact gated_drawsOwn (i := .nop) s (fun _ => rfl) fun _ => 0#64
  | statusRead => exact drawsOwn_respond_quiet (fun _ => rfl) rfl rfl
  | errClear => exact execErrClear_drawsOwn s
  | stateRead number => exact execStateRead_drawsOwn s number
  | memRead space index => exact execMemRead_drawsOwn s space index
  | paramWrite number v => exact execParamWrite_drawsOwn s number v
  | paramRead number => exact execParamRead_drawsOwn s number
  | rngNext64 => exact drawsOwn_drawCommand (n := 1) (fun _ => rfl) rfl rfl
  | rngNext32 => exact drawsOwn_drawCommand (n := 1) (fun _ => rfl) rfl rfl
  | rngNextF => exact drawsOwn_drawCommand (n := 1) (fun _ => rfl) rfl rfl
  | pinkNextV => exact drawsOwn_drawCommand (fun _ => rfl) (pinkNextValue_seeded s) (pinkNextValue_rng s)
  | pinkNextF => exact drawsOwn_drawCommand (fun _ => rfl) (pinkNextValue_seeded s) (pinkNextValue_rng s)
  | accClear => exact execAccClear_drawsOwn s
  | accAppend v => exact execAccAppend_drawsOwn s v
  | accSize => exact gated_drawsOwn (i := .accSize) s (fun _ => rfl) fun s => s.accSize.setWidth 64
  | accRead index => exact execAccRead_drawsOwn s index
  | accScale f => exact execAccScale_drawsOwn s f
  | accPeakMean => exact gated_drawsOwn (i := .accPeakMean) s (fun _ => rfl) fun s => peakMean s.acc
  | accReadPcm format index => exact execAccReadPcm_drawsOwn s format index
  | accStream format => exact execAccStream_drawsOwn s format
  | synthStart => exact execSynthStart_drawsOwn s
  | synthStep => exact execSynthStep_drawsOwn s
  | synthRun => exact execSynthRun_drawsOwn s

end

/-- Settles O31: no answer but that of RNG_SEED and RESET comes with anything but the command's draws. -/
theorem onlySeedingReseeds : Obligations.OnlySeedingReseeds := by
  intro i s t r hexec hrsp hreset hseed
  have h := exec_drawsOwn s hreset hseed t r hexec hrsp
  exact ⟨h.seeded, h.refused, h.accepted⟩

end Sys2Proof.CommandDraws
end

section
/-!
The pink-noise generator (42_pink_noise.md R122 to R126). Adding one to the counter flips its trailing ones and the bit
above them, so one value redraws the first sub-generators, as many as there are such bits, and no other.
-/

namespace Sys2Proof.PinkNoise

open Sys2Proof Sys2Proof.Machine Sys2Proof.Laws Sys2Proof.DrawCounts Sys2Proof.ExactFloat Sys2Proof.Noninterference

/-! ## The redraws of one value (R122) -/

/-- The sub-generators `w` after the next draws of the generator state `x` went to the first `n` of them. -/
def redrawn (x : Word64) (w : Vector Word32 5) (n : Nat) : Vector Word32 5 :=
  Vector.ofFn fun i : Fin 5 => if i.val < n then draw32 x i.val % 13107#32 else w[i]

/-- The state after the redraw of the first `n` sub-generators. -/
def redrawFirst (n : Nat) (s : State) : State :=
  { s with rng := xorshift^[n] s.rng, pink := { s.pink with w := redrawn s.rng s.pink.w n } }

section
variable (x : Word64) (w : Vector Word32 5)

theorem redrawn_get (n : Nat) (i : Fin 5) :
    (redrawn x w n)[i] = if i.val < n then draw32 x i.val % 13107#32 else w[i] := by
  rw [redrawn, Fin.getElem_fin, Vector.getElem_ofFn]

theorem redrawn_zero : redrawn x w 0 = w := by
  refine Vector.ext fun i hi => ?_
  exact redrawn_get x w 0 ⟨i, hi⟩

theorem redrawn_succ (i : Fin 5) : (redrawn x w i).set i (draw32 x i % 13107#32) = redrawn x w (i + 1) := by
  refine Vector.ext fun j hj => ?_
  have hold := redrawn_get x w i ⟨j, hj⟩
  have hnew := redrawn_get x w (i + 1) ⟨j, hj⟩
  simp only [Fin.getElem_fin] at hold hnew
  rw [Vector.getElem_set, hold, hnew]
  by_cases hij : i.val = j
  · simp [hij]
  · have hiff : j < i.val + 1 ↔ j < i.val := by omega
    simp only [hij, hiff, if_false]

/-- What `n` redraws give sub-generator `i` is there as soon as `i + 1` of them are made, or all `n`. -/
theorem redrawn_min_get (n : Nat) (i : Fin 5) : (redrawn x w (min (i + 1) n))[i] = (redrawn x w n)[i] := by
  have hiff : i.val < min (i.val + 1) n ↔ i.val < n := by omega
  simp only [redrawn_get, hiff]

end

theorem redrawFirst_zero (s : State) : redrawFirst 0 s = s := by
  rw [redrawFirst, redrawn_zero]
  rfl

/-- Draw `i` of the state goes to sub-generator `i`. -/
theorem redrawPink_redrawFirst (i : Fin 5) (s : State) : redrawPink (redrawFirst i s) i = redrawFirst (i + 1) s := by
  have hdraw : draw32 (xorshift^[i.val] s.rng) 0 = draw32 s.rng i := by
    rw [draw32, draw32, ← Function.iterate_add_apply, Nat.add_comm]
  rw [RandomDraws.redrawPink_eq, redrawFirst, redrawFirst, hdraw, redrawn_succ, Function.iterate_succ_apply']

/-- The flipped counter bits are the lowest ones. -/
theorem flips_iff_lt_pinkDraws :
    ∀ (key : BitVec 5) (i : Fin 5), flips (key ^^^ (key + 1#5)) i = true ↔ i.val < pinkDraws key := by
  decide

theorem pinkDraws_le (key : BitVec 5) : pinkDraws key ≤ 5 := by
  rw [← countP_flips_eq_pinkDraws]
  exact List.countP_le_length

theorem pinkTerm_eq (diff : BitVec 5) (r : Word32 × State) (i : Fin 5) :
    pinkTerm diff r i = (r.1 + (pinkTerm diff r i).2.pink.w[i], (pinkTerm diff r i).2) := rfl

/-- One term, where the flipped bits are the lowest `n`: one more redraw as long as there are any to make. -/
theorem pinkTerm_redrawFirst {diff : BitVec 5} {n : Nat} {i : Fin 5} (hdiff : flips diff i = true ↔ i.val < n)
    (sum : Word32) (s : State) :
    pinkTerm diff (sum, redrawFirst (min i n) s) i =
      (sum + (redrawn s.rng s.pink.w n)[i], redrawFirst (min (i + 1) n) s) := by
  have hstate : (pinkTerm diff (sum, redrawFirst (min i n) s) i).2 = redrawFirst (min (i + 1) n) s := by
    by_cases h : i.val < n
    · have hmin : min i.val n = i := by omega
      have hmin' : min (i.val + 1) n = i + 1 := by omega
      rw [pinkTerm_of_flips (hdiff.mpr h), hmin, hmin', redrawPink_redrawFirst]
    · have hmin : min i.val n = min (i.val + 1) n := by omega
      rw [pinkTerm_of_not_flips (mt hdiff.mp h), hmin]
  rw [pinkTerm_eq, hstate, ← redrawn_min_get]
  rfl

/-- The five terms in ascending order: the first `n` sub-generators are redrawn, and all of them added up. -/
theorem foldl_pinkTerm_redrawFirst {diff : BitVec 5} {n : Nat} (hn : n ≤ 5)
    (hdiff : ∀ i : Fin 5, flips diff i = true ↔ i.val < n) (s : State) :
    (List.finRange 5).foldl (pinkTerm diff) (0#32, s) = (pinkSum (redrawn s.rng s.pink.w n), redrawFirst n s) := by
  have hterm (k : Nat) (hk : k < 5) (sum : Word32) :
      pinkTerm diff (sum, redrawFirst (min k n) s) ⟨k, hk⟩ =
        (sum + (redrawn s.rng s.pink.w n)[k], redrawFirst (min (k + 1) n) s) :=
    pinkTerm_redrawFirst (hdiff ⟨k, hk⟩) sum s
  have hindices : List.finRange 5 =
      [⟨0, by decide⟩, ⟨1, by decide⟩, ⟨2, by decide⟩, ⟨3, by decide⟩, ⟨4, by decide⟩] := by decide
  have hstart : redrawFirst (min 0 n) s = s := by rw [Nat.zero_min, redrawFirst_zero]
  have hend : redrawFirst (min 5 n) s = redrawFirst n s := by rw [min_eq_right hn]
  calc (List.finRange 5).foldl (pinkTerm diff) (0#32, s)
    _ = (List.finRange 5).foldl (pinkTerm diff) (0#32, redrawFirst (min 0 n) s) := by rw [hstart]
    _ = (pinkSum (redrawn s.rng s.pink.w n), redrawFirst (min 5 n) s) := by
      simp only [hindices, List.foldl_cons, List.foldl_nil, hterm, BitVec.zero_add, pinkSum]
    _ = (pinkSum (redrawn s.rng s.pink.w n), redrawFirst n s) := by rw [hend]

/-- `PinkNextValue()` as a whole: the counter, the redraws, and the sum of the sub-generators after them. -/
theorem pinkNextValue_eq (s : State) :
    pinkNextValue s = (pinkSum (redrawn s.rng s.pink.w (pinkDraws s.pink.key)), { s with
      rng := xorshift^[pinkDraws s.pink.key] s.rng
      pink := { key := s.pink.key + 1#5, w := redrawn s.rng s.pink.w (pinkDraws s.pink.key) } }) :=
  foldl_pinkTerm_redrawFirst (pinkDraws_le _) (flips_iff_lt_pinkDraws _)
    { s with pink := { s.pink with key := s.pink.key + 1#5 } }

/-! ## The bound of the sum -/

/-- A redraw is a remainder by `PINK_M`, so it is as bounded as the sub-generators are. -/
theorem redrawn_toNat_lt (x : Word64) {w : Vector Word32 5} (n : Nat) (hw : ∀ i : Fin 5, w[i].toNat < 13107)
    (i : Fin 5) : (redrawn x w n)[i].toNat < 13107 := by
  rw [redrawn_get]
  split
  · rw [BitVec.toNat_umod]
    exact Nat.mod_lt _ (by decide)
  · exact hw i

/-- Five sub-generators below 13107 have a sum far below the wrap. -/
theorem pinkSum_toNat {w : Vector Word32 5} (hw : ∀ i : Fin 5, w[i].toNat < 13107) :
    (pinkSum w).toNat = w[0].toNat + w[1].toNat + w[2].toNat + w[3].toNat + w[4].toNat ∧
      (pinkSum w).toNat ≤ 65530 := by
  have h0 : w[0].toNat < 13107 := hw 0
  have h1 : w[1].toNat < 13107 := hw 1
  have h2 : w[2].toNat < 13107 := hw 2
  have h3 : w[3].toNat < 13107 := hw 3
  have h4 : w[4].toNat < 13107 := hw 4
  simp only [pinkSum, BitVec.toNat_add]
  omega

theorem pinkNextValue_toNat_le {s : State} (hw : ∀ i : Fin 5, s.pink.w[i].toNat < 13107) :
    (pinkNextValue s).1.toNat ≤ 65530 := by
  rw [pinkNextValue_eq]
  exact (pinkSum_toNat (redrawn_toNat_lt s.rng _ hw)).2

/-- Settles O32: PINK_NEXTV passes its checks and answers the value of `PinkNextValue()`. -/
theorem pinkNextValueRedrawsFlippedBits : Obligations.PinkNextValueRedrawsFlippedBits := by
  intro s hf hs hp
  refine ⟨redrawn s.rng s.pink.w (pinkDraws s.pink.key), ?_, redrawn_get _ _ _, fun hw => ?_⟩
  · rw [exec, execPinkNextV, drawCommand_pass _ hf hs hp, pinkNextValue_eq]
  · have hlt := redrawn_toNat_lt s.rng (pinkDraws s.pink.key) hw
    obtain ⟨hsum, hle⟩ := pinkSum_toNat hlt
    exact ⟨hsum, hle, hlt⟩

/-! ## The division by 65536 (R123) -/

/-- A binary32 quotient that the format holds is exact. -/
theorem div32_represents {x y : F32} {m n v : Nat} (hx : binary32.unpack x.toNat = .fin false m)
    (hy : binary32.unpack y.toNat = .fin false n) (hn : 0 < n) (hv : m * 2 ^ binary32.scale = v * n)
    (h : Holds binary32 v) : Represents (div32 x y) v := by
  have hdiv : binary32.div x.toNat y.toNat = binary32.round false (m * 2 ^ binary32.scale) n := by
    rw [FloatFormat.div, hx, hy]
    exact if_neg hn.ne'
  rw [div32, hdiv, hv]
  exact represents_round hn h

/-- Patterns go up with their values: one of a value up to `m * 2^q` is at most the pattern of that value. -/
theorem toNat_le_of_represents {x : F32} {v m q : Nat} (h : Represents x v) (hq : q < 254) (hm : 2 ^ 23 ≤ m)
    (hm' : m < 2 ^ 24) (hv : v ≤ m * 2 ^ q) : x.toNat ≤ q * 2 ^ 23 + m := by
  by_contra hlt
  have hsize : v < 2 ^ (24 + q) := by
    rw [Nat.pow_add]
    exact hv.trans_lt (Nat.mul_lt_mul_of_pos_right hm' (Nat.two_pow_pos q))
  have hlast : lastBit binary32 v ≤ 24 + q - 24 := lastBit_le_of_lt hsize
  have hbound := h.bound
  obtain ⟨significand, hx⟩ : ∃ significand, x.toNat = q * 2 ^ 23 + significand := Nat.exists_eq_add_of_le (by omega)
  have hlower : m < significand := by omega
  have hupper : significand < 2 ^ 24 := by omega
  have hvalue : binary32.unpack x.toNat = .fin false (significand * 2 ^ q) :=
    hx ▸ unpack_of_significand (f := binary32) (by decide) (by decide) (show q + 1 < 255 by omega) hupper
      (.inr (hm.trans hlower.le))
  obtain rfl : v = significand * 2 ^ q := (FloatValue.fin.inj (h.value.symm.trans hvalue)).2
  exact absurd (Nat.le_of_mul_le_mul_right hv (Nat.two_pow_pos q)) (by omega)

theorem unpack_pinkRange : binary32.unpack (nat32 Config.pinkRange.toNat).toNat = .fin false (2 ^ 165) := by
  decide +kernel

/-- `PinkNextFloat()` rounds neither in its conversions nor in its quotient. -/
theorem pinkNextFloat_represents {s : State} (hw : ∀ i : Fin 5, s.pink.w[i].toNat < 13107) :
    Represents (pinkNextFloat s).1 ((pinkNextValue s).1.toNat * 2 ^ 133) := by
  have hsum : (pinkNextValue s).1.toNat < 2 ^ 24 := (pinkNextValue_toNat_le hw).trans_lt (by decide)
  have hscale : 2 ^ binary32.scale * 2 ^ binary32.scale = 2 ^ 133 * 2 ^ 165 := by decide
  refine div32_represents (nat32_represents hsum).value unpack_pinkRange (Nat.two_pow_pos _) ?_
    (holds_binary32 133 hsum (by decide))
  rw [Nat.mul_assoc, hscale, Nat.mul_assoc]

/-- Settles O33: the largest sum is `65530 = 0xFFFA00 / 2^8`, which gives the largest pattern. -/
theorem pinkNextFloatIsExact : Obligations.PinkNextFloatIsExact := by
  intro s hf hs hp
  refine ⟨(pinkNextFloat s).1, drawCommand_pass _ hf hs hp, fun hw => ?_⟩
  have h := pinkNextFloat_represents hw
  have hsum := pinkNextValue_toNat_le hw
  have hle : (pinkNextFloat s).1.toNat ≤ 125 * 2 ^ 23 + 0xFFFA00 :=
    toNat_le_of_represents h (by decide) (by decide) (by decide) (by omega)
  exact ⟨h.value, by omega⟩

/-! ## The fills of the banks (R126; 45_synth_datapath.md R182) -/

theorem pinkNextFloat_key (s : State) : (pinkNextFloat s).2.pink.key = s.pink.key + 1#5 := by
  rw [pinkNextFloat, pinkNextValue_key]

/-- Each word of a pink fill moves the counter on by one. -/
theorem refreshBank_pinkNextFloat_key (space : Space) (n : Nat) (s : State) :
    (refreshBank space pinkNextFloat n s).pink.key = s.pink.key + BitVec.ofNat 5 n := by
  induction n with
  | zero => exact (BitVec.add_zero _).symm
  | succ n ih =>
    rw [refreshBank_succ, memWrite_pink, pinkNextFloat_key, ih, BitVec.add_assoc, ← BitVec.ofNat_add]

/-- A fill takes the counter once round its 32 values. -/
theorem refreshPink_key (s : State) : (refreshPink s).pink.key = s.pink.key := by
  have hcycle : BitVec.ofNat 5 Config.noiseLen = 0#5 := by decide
  rw [refreshPink_eq_refreshBank, refreshBank_pinkNextFloat_key, hcycle, BitVec.add_zero]

/-- Settles O34: the draws of a fill are counted, and only the pink fill touches the pink state. -/
theorem bankFillsDraw : Obligations.BankFillsDraw :=
  ⟨fun s => ⟨refreshPink_key s, refreshPink_rng s⟩, fun s => ⟨by rw [refreshWhite_state], refreshWhite_rng s⟩⟩

end Sys2Proof.PinkNoise
end

section
/-!
The accumulator's commands (43_accumulator.md R130 to R136, R139). Each is its response behind its checks, and
`exec_accClear` to `exec_accPeakMean` say this once of each. The scan of ACC_PEAKMEAN is two folds side by side, and the
peak is what a fold keeps that replaces its value by a greater magnitude only.
-/

namespace Sys2Proof.AccumulatorCommands

open Sys2Proof Sys2Proof.Machine Sys2Proof.Laws

/-! ## The commands behind their checks -/

section
variable {s : State} (hf : s.status.fatal = false)
include hf

theorem exec_accSize : exec .accSize s = respond (s.accSize.setWidth 64) s := by
  rw [exec, execAccSize, fatalGate_pass _ hf]

theorem exec_accRead (index : Word32) :
    exec (.accRead index) s = s.acc[index.toNat]?.elim (raise .range s) fun v => respond (v.setWidth 64) s := by
  rw [exec, execAccRead, fatalGate_pass _ hf]
  cases s.acc[index.toNat]? <;> rfl

theorem exec_accReadPcm (format : BitVec 8) (index : Word32) :
    exec (.accReadPcm format index) s = (SampleFormat.ofCode format).elim (raise .config s) fun f =>
      s.acc[index.toNat]?.elim (raise .range s) fun v => respond ((pcm f v).setWidth 64) s := by
  rw [exec, execAccReadPcm, fatalGate_pass _ hf]
  cases SampleFormat.ofCode format
  · rfl
  · cases s.acc[index.toNat]? <;> rfl

theorem exec_accPeakMean : exec .accPeakMean s = respond (peakMean s.acc) s := by
  rw [exec, execAccPeakMean, fatalGate_pass _ hf]

theorem exec_accStream (format : BitVec 8) :
    exec (.accStream format) s = (SampleFormat.ofCode format).elim (raise .config s) fun f =>
      respond (BitVec.ofNat 64 (s.acc.length * f.bytes))
        { s with ports := { s.ports with stream := streamOf f s.acc } } := by
  rw [exec, execAccStream, fatalGate_pass _ hf]
  cases SampleFormat.ofCode format <;> rfl

variable (hp : s.status.playing = false)
include hp

theorem exec_accClear : exec .accClear s = respond 0#64 { s with acc := [] } := by
  rw [exec, execAccClear, fatalGate_pass _ hf, idleCheck_pass _ hp]

theorem exec_accAppend (v : F32) :
    exec (.accAppend v) s = check .full (Config.sampleCap ≤ s.acc.length) s fun s =>
      respond ((accAppend v s).accSize.setWidth 64) (accAppend v s) := by
  rw [exec, execAccAppend, fatalGate_pass _ hf, idleCheck_pass _ hp]

theorem exec_accScale (factor : F32) :
    exec (.accScale factor) s = respond 0#64 { s with acc := s.acc.map (mul32 · factor) } := by
  rw [exec, execAccScale, fatalGate_pass _ hf, idleCheck_pass _ hp]

end

/-- There is no format code above 4 (R137). -/
theorem formatOfCode_beyond {format : BitVec 8} (h : 4 < format.toNat) : SampleFormat.ofCode format = none := by
  unfold SampleFormat.ofCode
  split
  case h_6 => rfl
  all_goals omega

theorem sampleCap_eq : Config.sampleCap = 1048576 := by decide +kernel

/-! ## ACC_CLEAR and ACC_APPEND (R131, R132) -/

/-- Below the cap the 32 bits of `acc_size` hold the new number of samples. -/
theorem accSize_accAppend {s : State} (v : F32) (h : s.acc.length < 1048576) :
    (accAppend v s).accSize.setWidth 64 = BitVec.ofNat 64 (s.acc.length + 1) := by
  rw [State.accSize, accAppend_acc, List.length_append, List.length_singleton]
  apply BitVec.eq_of_toNat_eq
  simp only [BitVec.toNat_setWidth, BitVec.toNat_ofNat]
  omega

/-- Settles O36: the check of ACC_APPEND passes below the cap and fails at it. -/
theorem accClearAndAppend : Obligations.AccClearAndAppend := by
  intro s v hf hp
  rw [exec_accAppend hf hp, sampleCap_eq]
  refine ⟨exec_accClear hf hp, fun hroom => ?_, fun hfull => ?_⟩
  · rw [decide_eq_false (Nat.not_le.mpr hroom), check_pass, accSize_accAppend v hroom, respond, accAppend]
  · rw [decide_eq_true hfull.ge, check_fail, raise]

/-! ## ACC_SIZE, ACC_READ and ACC_READ_PCM (R133, R134, R139) -/

/-- Settles O37: by the format code and by the sample at the index. -/
theorem accReadsAnswer : Obligations.AccReadsAnswer := by
  intro s format f index hf
  rw [exec_accRead hf, exec_accReadPcm hf]
  refine ⟨exec_accSize hf, fun hi => ?_, fun hcode => ?_, fun hi hcode => ?_⟩
  · rw [List.getElem?_eq_getElem hi, Option.elim_some, respond]
  · rw [formatOfCode_beyond hcode, Option.elim_none, raise]
  · rw [hcode, Option.elim_some, List.getElem?_eq_getElem hi, Option.elim_some, respond]

/-! ## The order of binary32 (00_scope.md R13) -/

theorem lt32_iff (x y : F32) :
    lt32 x y = true ↔ isNaN32 x = false ∧ isNaN32 y = false ∧
      binary32.orderKey x.toNat < binary32.orderKey y.toNat := by
  simp [lt32, FloatFormat.lt, isNaN32, and_assoc]

theorem lt32_irrefl (x : F32) : lt32 x x = false := by
  rw [Bool.eq_false_iff, ne_eq, lt32_iff]
  exact fun ⟨_, _, hlt⟩ => lt_irrefl _ hlt

theorem lt32_trans {x y z : F32} (hxy : lt32 x y = true) (hyz : lt32 y z = true) : lt32 x z = true := by
  rw [lt32_iff] at *
  obtain ⟨hx, _, hlt⟩ := hxy
  obtain ⟨_, hz, hlt'⟩ := hyz
  exact ⟨hx, hz, hlt.trans hlt'⟩

/-! ## ACC_PEAKMEAN (R136) -/

/-- The peak after one more sample. -/
def peakStep (peak v : F32) : F32 := if lt32 peak (abs32 v) then abs32 v else peak

/-- The sum of the magnitudes after one more sample. -/
def sumStep (sum : F64) (v : F32) : F64 := add64 sum (widen (abs32 v))

/-- The scan takes the peak and the sum side by side. -/
theorem foldl_peakMeanStep (samples : List F32) (peak : F32) (sum : F64) :
    samples.foldl peakMeanStep (peak, sum) = (samples.foldl peakStep peak, samples.foldl sumStep sum) := by
  induction samples generalizing peak sum with
  | nil => rfl
  | cons v samples ih => exact ih (peakStep peak v) (sumStep sum v)

theorem peakMean_eq (samples : List F32) :
    peakMean samples = (if samples.isEmpty then 0#32 else
      narrow (div64 (samples.foldl sumStep 0#64) (nat64 samples.length))) ++ samples.foldl peakStep 0#32 := by
  rw [peakMean, foldl_peakMeanStep]

/-- What R136 asks of the peak of the samples. -/
structure IsPeak (samples : List F32) (peak : F32) : Prop where
  attained : peak = 0#32 ∨ ∃ v ∈ samples, peak = abs32 v
  notNaN : isNaN32 peak = false
  greatest : ∀ v ∈ samples, lt32 peak (abs32 v) = false

theorem isPeak_nil : IsPeak [] 0#32 := ⟨.inl rfl, by decide, nofun⟩

/-- A sample of greater magnitude is the new peak; any other leaves the peak as it is. -/
theorem IsPeak.snoc {samples : List F32} {peak : F32} (h : IsPeak samples peak) (v : F32) :
    IsPeak (samples ++ [v]) (peakStep peak v) := by
  rw [peakStep]
  by_cases hlt : lt32 peak (abs32 v) = true
  · rw [if_pos hlt]
    obtain ⟨_, hnan, _⟩ := (lt32_iff _ _).mp hlt
    refine ⟨.inr ⟨v, by simp, rfl⟩, hnan, fun u hu => ?_⟩
    rcases List.mem_append.mp hu with hu | hu
    · exact Bool.eq_false_iff.mpr fun hgt => Bool.eq_false_iff.mp (h.greatest u hu) (lt32_trans hlt hgt)
    · rw [List.mem_singleton.mp hu, lt32_irrefl]
  · rw [if_neg hlt]
    refine ⟨h.attained.imp_right fun ⟨u, hu, heq⟩ => ⟨u, List.mem_append_left _ hu, heq⟩, h.notNaN, fun u hu => ?_⟩
    rcases List.mem_append.mp hu with hu | hu
    · exact h.greatest u hu
    · rw [List.mem_singleton.mp hu, Bool.eq_false_iff]
      exact hlt

theorem isPeak_foldl (samples : List F32) : IsPeak samples (samples.foldl peakStep 0#32) := by
  induction samples using List.reverseRecOn with
  | nil => exact isPeak_nil
  | append_singleton samples v ih =>
    rw [List.foldl_append, List.foldl_cons, List.foldl_nil]
    exact ih.snoc v

/-- Settles O39: the two halves of the response are the two folds of the scan. -/
theorem accPeakMeanAnswers : Obligations.AccPeakMeanAnswers := by
  intro s hf
  obtain ⟨hattained, hnan, hgreatest⟩ := isPeak_foldl s.acc
  refine ⟨_, _, by rw [exec_accPeakMean hf, respond, peakMean_eq], fun hempty => ?_, fun hsome => ?_,
    hattained, hnan, hgreatest⟩
  · rw [hempty]
    exact ⟨rfl, rfl⟩
  · rw [if_neg (by simpa using hsome)]
    rfl

end Sys2Proof.AccumulatorCommands
end

section
/-!
The stream of ACC_STREAM (43_accumulator.md R140). Every sample gives the same number of bytes, so the byte at
`n * B + k` is byte `k` of sample `n`, and marking the last byte keeps all positions.
-/

namespace Sys2Proof.AccumulatorStream

open Sys2Proof Sys2Proof.Machine Sys2Proof.Laws Sys2Proof.AccumulatorCommands

theorem sampleBytes_length (f : SampleFormat) (v : F32) : (sampleBytes f v).length = f.bytes := by
  simp [sampleBytes]

theorem sampleBytes_getElem? {f : SampleFormat} {k : Nat} (v : F32) (hk : k < f.bytes) :
    (sampleBytes f v)[k]? = some ((pcm f v).extractLsb' (8 * k) 8) := by
  simp [sampleBytes, hk]

theorem flatMap_sampleBytes_length (f : SampleFormat) (samples : List F32) :
    (samples.flatMap (sampleBytes f)).length = samples.length * f.bytes := by
  simp [List.length_flatMap, sampleBytes_length]

/-- Byte `k` of sample `n` stands behind the bytes of `n` samples. -/
theorem flatMap_sampleBytes_getElem? {f : SampleFormat} {samples : List F32} {n k : Nat} {v : F32}
    (hv : samples[n]? = some v) (hk : k < f.bytes) :
    (samples.flatMap (sampleBytes f))[n * f.bytes + k]? = (sampleBytes f v)[k]? := by
  induction samples generalizing n with
  | nil => simp at hv
  | cons u samples ih =>
    rw [List.flatMap_cons]
    cases n with
    | zero =>
      obtain rfl : u = v := by simpa using hv
      rw [Nat.zero_mul, Nat.zero_add, List.getElem?_append_left (by rwa [sampleBytes_length])]
    | succ n =>
      have hskip : (n + 1) * f.bytes + k = (sampleBytes f u).length + (n * f.bytes + k) := by
        rw [sampleBytes_length, Nat.succ_mul]
        omega
      rw [hskip, List.getElem?_append_right (Nat.le_add_right _ _), Nat.add_sub_cancel_left]
      exact ih (by simpa using hv)

/-- Marking keeps every byte at its position and marks the one with none behind it. -/
theorem markLast_getElem? (bytes : List Byte) (i : Nat) :
    (markLast bytes)[i]? = bytes[i]?.map fun b => { byte := b, last := decide (i + 1 = bytes.length) } := by
  induction bytes generalizing i with
  | nil => rfl
  | cons b bytes ih =>
    cases bytes with
    | nil => cases i <;> simp [markLast]
    | cons c bytes =>
      cases i with
      | zero => simp [markLast]
      | succ i => simpa [markLast] using ih i

theorem markLast_length (bytes : List Byte) : (markLast bytes).length = bytes.length := by
  fun_induction markLast bytes with
  | case1 => rfl
  | case2 b => rfl
  | case3 b rest _ ih => rw [List.length_cons, ih, List.length_cons]

theorem streamOf_length (f : SampleFormat) (samples : List F32) :
    (streamOf f samples).length = samples.length * f.bytes := by
  rw [streamOf, markLast_length, flatMap_sampleBytes_length]

/-- The last of `len` rows of `b` ends where everything ends. -/
theorem end_of_rows_iff {n k len b : Nat} (hn : n < len) (hk : k < b) :
    n * b + k + 1 = len * b ↔ n + 1 = len ∧ k + 1 = b := by
  constructor
  · intro hend
    have hlast : n + 1 = len := by
      by_contra hne
      have hrows : (n + 2) * b ≤ len * b := Nat.mul_le_mul_right b (by omega)
      rw [Nat.add_mul] at hrows
      omega
    rw [← hlast, Nat.succ_mul] at hend
    exact ⟨hlast, by omega⟩
  · rintro ⟨rfl, rfl⟩
    rw [Nat.succ_mul, Nat.add_assoc]

theorem streamOf_getElem? {f : SampleFormat} {samples : List F32} {n k : Nat} {v : F32} (hv : samples[n]? = some v)
    (hk : k < f.bytes) : (streamOf f samples)[n * f.bytes + k]? =
      some { byte := (pcm f v).extractLsb' (8 * k) 8, last := decide (n + 1 = samples.length ∧ k + 1 = f.bytes) } := by
  have hn : n < samples.length := (List.getElem?_eq_some_iff.mp hv).1
  rw [streamOf, markLast_getElem?, flatMap_sampleBytes_getElem? hv hk, sampleBytes_getElem? v hk,
    flatMap_sampleBytes_length, Option.map_some]
  simp only [end_of_rows_iff hn hk]

/-- The table of R137: what the five codes stand for. -/
theorem format_of_table {f : SampleFormat} {format : BitVec 8} {b : Nat} (h : (f, format, b) ∈
    [(.f32, 0#8, 4), (.pcm8, 1#8, 1), (.pcm16, 2#8, 2), (.pcm24, 3#8, 3), (.pcm32, 4#8, 4)]) :
    SampleFormat.ofCode format = some f ∧ f.bytes = b := by
  simp only [List.mem_cons, List.not_mem_nil, or_false, Prod.mk.injEq] at h
  obtain ⟨rfl, rfl, rfl⟩ | ⟨rfl, rfl, rfl⟩ | ⟨rfl, rfl, rfl⟩ | ⟨rfl, rfl, rfl⟩ | ⟨rfl, rfl, rfl⟩ := h <;>
    exact ⟨rfl, rfl⟩

/-- Settles O41: a code of the table puts `streamOf` on the port, and its bytes are found by sample and byte number. -/
theorem accStreamEmitsTheBytes : Obligations.AccStreamEmitsTheBytes := by
  intro s format hf
  rw [exec_accStream hf]
  refine ⟨fun hcode => ?_, fun f b htable => ?_⟩
  · rw [formatOfCode_beyond hcode, Option.elim_none, raise]
  · obtain ⟨hcode, rfl⟩ := format_of_table htable
    rw [hcode, Option.elim_some]
    exact ⟨streamOf f s.acc, rfl, streamOf_length f s.acc, fun _ _ _ hv hk => streamOf_getElem? hv hk⟩

end Sys2Proof.AccumulatorStream
end

section
/-!
Patterns as sign and magnitude (00_scope.md R10, R13). Every pattern is a magnitude with a sign; below the pattern of
+infinity the values grow strictly with the magnitudes, so a finite pattern is found again by rounding its value, and
the order of patterns is the order of values.
-/

namespace Sys2Proof.FloatPatterns

open Sys2Proof Sys2Proof.Machine Sys2Proof.ExactFloat

/-- The `k` of the value `k * 2^-scale` of a finite pattern without a sign. -/
def magnitudeValue (f : FloatFormat) (magnitude : Nat) : Nat :=
  if magnitude / 2 ^ (f.prec - 1) = 0 then magnitude % 2 ^ (f.prec - 1)
  else (2 ^ (f.prec - 1) + magnitude % 2 ^ (f.prec - 1)) * 2 ^ (magnitude / 2 ^ (f.prec - 1) - 1)

theorem magnitudeValue_of_fields {f : FloatFormat} (exponent : Nat) {fraction : Nat}
    (hf : fraction < 2 ^ (f.prec - 1)) : magnitudeValue f (2 ^ (f.prec - 1) * exponent + fraction) =
      if exponent = 0 then fraction else (2 ^ (f.prec - 1) + fraction) * 2 ^ (exponent - 1) := by
  rw [magnitudeValue, Nat.mul_add_div (Nat.two_pow_pos _), Nat.div_eq_of_lt hf, Nat.add_zero, Nat.mul_add_mod,
    Nat.mod_eq_of_lt hf]

/-- The next pattern has the next fraction, or after the last fraction the next exponent. -/
theorem magnitudeValue_lt_succ (f : FloatFormat) (n : Nat) : magnitudeValue f n < magnitudeValue f (n + 1) := by
  obtain ⟨exponent, fraction, hf, rfl⟩ :
      ∃ exponent fraction, fraction < 2 ^ (f.prec - 1) ∧ 2 ^ (f.prec - 1) * exponent + fraction = n :=
    ⟨_, _, Nat.mod_lt _ (Nat.two_pow_pos _), Nat.div_add_mod n _⟩
  rw [magnitudeValue_of_fields exponent hf]
  by_cases hnext : fraction + 1 < 2 ^ (f.prec - 1)
  · rw [Nat.add_assoc, magnitudeValue_of_fields exponent hnext]
    split
    · exact Nat.lt_succ_self _
    · exact Nat.mul_lt_mul_of_pos_right (by omega) (Nat.two_pow_pos _)
  · have hcarry : 2 ^ (f.prec - 1) * exponent + fraction + 1 = 2 ^ (f.prec - 1) * (exponent + 1) + 0 := by
      rw [Nat.mul_succ]
      omega
    rw [hcarry, magnitudeValue_of_fields (exponent + 1) (Nat.two_pow_pos _), if_neg (Nat.succ_ne_zero _),
      Nat.add_zero, Nat.add_sub_cancel]
    cases exponent with
    | zero => simpa using hf
    | succ e =>
      rw [if_neg (Nat.succ_ne_zero _), Nat.add_sub_cancel, Nat.pow_succ', ← Nat.mul_assoc]
      exact Nat.mul_lt_mul_of_pos_right (by omega) (Nat.two_pow_pos _)

theorem magnitudeValue_strictMono (f : FloatFormat) : StrictMono (magnitudeValue f) :=
  strictMono_nat_of_lt_succ (magnitudeValue_lt_succ f)

/-! ## A pattern is a magnitude with a sign -/

theorem withSign_false (f : FloatFormat) (magnitude : Nat) : f.withSign false magnitude = magnitude := rfl

section
variable {f : FloatFormat} (hprec : 1 ≤ f.prec) (hwidth : f.prec < f.width)

include hprec hwidth in
theorem signBit_eq : f.signBit = 2 ^ (f.prec - 1) * 2 ^ (f.width - f.prec) := by
  rw [FloatFormat.signBit, ← Nat.pow_add]
  congr 1
  omega

include hprec hwidth in
/-- The infinities are the first patterns with the top exponent. -/
theorem infBits_lt_signBit : f.infBits < f.signBit := by
  rw [signBit_eq hprec hwidth, FloatFormat.infBits, FloatFormat.topExponent, Nat.mul_comm]
  exact Nat.mul_lt_mul_of_pos_left (Nat.sub_lt (Nat.two_pow_pos _) Nat.one_pos) (Nat.two_pow_pos _)

include hwidth in
theorem exists_withSign {x : Nat} (hx : x < 2 ^ f.width) :
    ∃ neg magnitude, magnitude < f.signBit ∧ x = f.withSign neg magnitude := by
  have hdouble : 2 ^ f.width = 2 * f.signBit := by
    rw [FloatFormat.signBit, ← Nat.pow_succ']
    congr 1
    omega
  by_cases hlt : x < f.signBit
  · exact ⟨false, x, hlt, rfl⟩
  · exact ⟨true, x - f.signBit, by omega, (Nat.add_sub_of_le (Nat.le_of_not_lt hlt)).symm⟩

variable {magnitude : Nat} (hmag : magnitude < f.signBit)
include hmag

theorem withSign_mod (neg : Bool) : f.withSign neg magnitude % f.signBit = magnitude := by
  cases neg with
  | false => exact Nat.mod_eq_of_lt hmag
  | true => exact (Nat.add_mod_left ..).trans (Nat.mod_eq_of_lt hmag)

theorem withSign_testBit (neg : Bool) : (f.withSign neg magnitude).testBit (f.width - 1) = neg := by
  have hclear : magnitude.testBit (f.width - 1) = false := Nat.testBit_lt_two_pow hmag
  cases neg with
  | false => exact hclear
  | true => exact (Nat.testBit_two_pow_add_eq ..).trans (by rw [hclear, Bool.not_false])

theorem isNaN_withSign (neg : Bool) : f.isNaN (f.withSign neg magnitude) = decide (f.infBits < magnitude) := by
  rw [FloatFormat.isNaN, withSign_mod hmag]

theorem orderKey_withSign (neg : Bool) :
    f.orderKey (f.withSign neg magnitude) = if neg then -(magnitude : Int) else (magnitude : Int) := by
  rw [FloatFormat.orderKey, withSign_testBit hmag, withSign_mod hmag]

include hprec hwidth

/-- What a pattern stands for, by its magnitude against that of infinity. -/
theorem unpack_withSign (neg : Bool) :
    f.unpack (f.withSign neg magnitude) =
      if magnitude < f.infBits then .fin neg (magnitudeValue f magnitude)
      else if magnitude = f.infBits then .inf neg else .nan := by
  have hsign := signBit_eq hprec hwidth
  have hexponent : f.withSign neg magnitude / 2 ^ (f.prec - 1) % 2 ^ (f.width - f.prec) =
      magnitude / 2 ^ (f.prec - 1) := by
    rw [← Nat.mod_mul_right_div_self, ← hsign, withSign_mod hmag]
  have hfraction : f.withSign neg magnitude % 2 ^ (f.prec - 1) = magnitude % 2 ^ (f.prec - 1) := by
    rw [← Nat.mod_mod_of_dvd _ (Dvd.intro _ hsign.symm), withSign_mod hmag]
  have hrange : magnitude / 2 ^ (f.prec - 1) < 2 ^ (f.width - f.prec) :=
    Nat.div_lt_of_lt_mul (hsign ▸ hmag)
  have hparts := Nat.div_add_mod magnitude (2 ^ (f.prec - 1))
  have hinf : f.infBits = 2 ^ (f.prec - 1) * f.topExponent := Nat.mul_comm ..
  have htop : f.topExponent = 2 ^ (f.width - f.prec) - 1 := rfl
  simp only [FloatFormat.unpack, withSign_testBit hmag, hexponent, hfraction]
  by_cases hfinite : magnitude < f.infBits
  · have hne : magnitude / 2 ^ (f.prec - 1) ≠ f.topExponent :=
      (Nat.div_lt_of_lt_mul (hinf ▸ hfinite)).ne
    rw [if_neg hne, if_pos hfinite, magnitudeValue]
    split <;> rfl
  · have heq : magnitude / 2 ^ (f.prec - 1) = f.topExponent :=
      Nat.le_antisymm (by omega)
        ((Nat.le_div_iff_mul_le (Nat.two_pow_pos _)).mpr (Nat.le_of_not_lt hfinite))
    rw [heq, ← hinf] at hparts
    rw [if_pos heq, if_neg hfinite]
    exact if_congr (by omega) rfl rfl

end

/-! ## Rounding the value of a pattern (R11) -/

section
variable {f : FloatFormat} (hprec : 1 ≤ f.prec) (hwidth : f.prec + 2 ≤ f.width)
include hprec hwidth

/-- The format holds the value of each of its finite patterns. -/
theorem holds_magnitudeValue {magnitude : Nat} (h : magnitude < f.infBits) : Holds f (magnitudeValue f magnitude) := by
  have htop : 1 < f.topExponent := by
    have hexp : 2 ^ 2 ≤ 2 ^ (f.width - f.prec) := Nat.pow_le_pow_right (by decide) (by omega)
    rw [FloatFormat.topExponent]
    omega
  have hexponent : magnitude / 2 ^ (f.prec - 1) < f.topExponent :=
    Nat.div_lt_of_lt_mul (Nat.mul_comm .. ▸ h)
  have hfraction := Nat.mod_lt magnitude (Nat.two_pow_pos (f.prec - 1))
  have hdouble := two_pow_prec hprec
  obtain ⟨significand, e, hvalue, hsig, he⟩ : ∃ significand e, magnitudeValue f magnitude = significand * 2 ^ e ∧
      significand < 2 ^ f.prec ∧ e + 1 < f.topExponent := by
    rw [magnitudeValue]
    split
    · exact ⟨_, 0, (Nat.mul_one _).symm, by omega, htop⟩
    · exact ⟨_, _, rfl, by omega, by omega⟩
  have hsize : significand * 2 ^ e < 2 ^ (f.prec + e) := by
    rw [Nat.pow_add]
    exact Nat.mul_lt_mul_of_pos_right hsig (Nat.two_pow_pos e)
  rw [hvalue]
  refine holds_of_significand significand e hsig ?_
  have hlast : lastBit f (significand * 2 ^ e) ≤ f.prec + e - f.prec := lastBit_le_of_lt hsize
  omega

/-- The value of a finite pattern rounds to that pattern. -/
theorem round_magnitudeValue {magnitude d : Nat} (h : magnitude < f.infBits) (hd : 0 < d) (neg : Bool) :
    f.round neg (magnitudeValue f magnitude * d) d = f.withSign neg magnitude := by
  have hlt : f.prec < f.width := by omega
  have hinf := infBits_lt_signBit hprec hlt
  have hbound : f.roundMagnitude (magnitudeValue f magnitude * d) d ≤ f.infBits := Nat.min_le_right ..
  have hvalue := unpack_roundMagnitude hprec hlt.le hd (holds_magnitudeValue hprec hwidth h)
  have hpattern := unpack_withSign hprec hlt (hbound.trans_lt hinf) false
  rw [withSign_false, hvalue] at hpattern
  split at hpattern
  · obtain ⟨-, hvalues⟩ := FloatValue.fin.inj hpattern
    rw [FloatFormat.round, ← (magnitudeValue_strictMono f).injective hvalues]
  · split at hpattern <;> cases hpattern

/-- The product by one is the operand, and the quiet NaN for a NaN. -/
theorem mul_one_pattern {x one : Nat} (hone : f.unpack one = .fin false (2 ^ f.scale)) (hx : x < 2 ^ f.width) :
    f.mul x one = if f.isNaN x then f.nanBits else x := by
  have hlt : f.prec < f.width := by omega
  obtain ⟨neg, magnitude, hmag, rfl⟩ := exists_withSign hlt hx
  rw [FloatFormat.mul, hone, unpack_withSign hprec hlt hmag, isNaN_withSign hmag]
  obtain hfinite | rfl | hnan := Nat.lt_trichotomy magnitude f.infBits
  · simp [hfinite, hfinite.le, round_magnitudeValue hprec hwidth hfinite (Nat.two_pow_pos _)]
  · simp
  · simp [hnan, hnan.ne', hnan.not_gt]

end

/-! ## The order of patterns (R13) -/

theorem le_iff (f : FloatFormat) (x y : Nat) :
    f.le x y = true ↔ f.isNaN x = false ∧ f.isNaN y = false ∧ f.orderKey x ≤ f.orderKey y := by
  simp [FloatFormat.le, and_assoc]

section
variable {f : FloatFormat} (hprec : 1 ≤ f.prec) (hwidth : f.prec < f.width)
include hprec hwidth

theorem unpack_eq_nan {x : Nat} (hx : x < 2 ^ f.width) (hnan : f.isNaN x = true) : f.unpack x = .nan := by
  obtain ⟨neg, magnitude, hmag, rfl⟩ := exists_withSign hwidth hx
  rw [isNaN_withSign hmag, decide_eq_true_iff] at hnan
  rw [unpack_withSign hprec hwidth hmag, if_neg hnan.not_gt, if_neg hnan.ne']

theorem unpack_eq_fin {x k : Nat} {neg : Bool} (hx : x < 2 ^ f.width) (h : f.unpack x = .fin neg k) :
    ∃ magnitude, magnitude < f.infBits ∧ x = f.withSign neg magnitude ∧ k = magnitudeValue f magnitude := by
  obtain ⟨sign, magnitude, hmag, rfl⟩ := exists_withSign hwidth hx
  rw [unpack_withSign hprec hwidth hmag] at h
  split at h
  · next hfinite =>
    obtain ⟨rfl, rfl⟩ := FloatValue.fin.inj h
    exact ⟨magnitude, hfinite, rfl, rfl⟩
  · split at h <;> cases h

/-- Finite patterns compare as their signed magnitudes. -/
theorem le_withSign_iff {m n : Nat} (hm : m < f.infBits) (hn : n < f.infBits) (a b : Bool) :
    f.le (f.withSign a m) (f.withSign b n) = true ↔
      (if a then -(m : Int) else (m : Int)) ≤ if b then -(n : Int) else (n : Int) := by
  have hinf := infBits_lt_signBit hprec hwidth
  rw [le_iff, isNaN_withSign (hm.trans hinf), isNaN_withSign (hn.trans hinf), orderKey_withSign (hm.trans hinf),
    orderKey_withSign (hn.trans hinf), decide_eq_false hm.not_gt, decide_eq_false hn.not_gt]
  simp only [true_and]

/-- A finite value between the ends of a range, neither end reached, has a magnitude below that of the ends. -/
theorem value_lt_of_between {x bound k : Nat} {neg : Bool} (hx : x < 2 ^ f.width) (hvalue : f.unpack x = .fin neg k)
    (hbound : bound < f.infBits) (hupper : f.le bound x = false)
    (hlower : f.le x (f.withSign true bound) = false) : k < magnitudeValue f bound := by
  obtain ⟨magnitude, hfinite, rfl, rfl⟩ := unpack_eq_fin hprec hwidth hx hvalue
  apply magnitudeValue_strictMono f
  rw [← withSign_false f bound, Bool.eq_false_iff, ne_eq, le_withSign_iff hprec hwidth hbound hfinite] at hupper
  rw [Bool.eq_false_iff, ne_eq, le_withSign_iff hprec hwidth hfinite hbound] at hlower
  cases neg with
  | false => simpa using hupper
  | true => simpa using hlower

end

end Sys2Proof.FloatPatterns
end

section
/-!
ACC_SCALE (43_accumulator.md R135): one binary32 product for each sample, and one is neutral for that product.
-/

namespace Sys2Proof.AccumulatorScale

open Sys2Proof Sys2Proof.Machine Sys2Proof.Laws Sys2Proof.FloatPatterns

theorem unpack_one32 : binary32.unpack (0x3F800000#32 : F32).toNat = .fin false (2 ^ binary32.scale) := by
  decide +kernel

/-- One is neutral for the binary32 product of every pattern but a NaN (00_scope.md R13). -/
theorem mul32_one (v : F32) : mul32 v 0x3F800000#32 = if isNaN32 v then 0x7FC00000#32 else v := by
  rw [mul32, mul_one_pattern (by decide) (by decide) unpack_one32 v.isLt, isNaN32]
  split
  · rfl
  · rw [BitVec.ofNat_toNat, BitVec.setWidth_eq]

/-- Settles O38: the samples are mapped, so each stays in its place. -/
theorem accScaleMultipliesEachSample : Obligations.AccScaleMultipliesEachSample := by
  refine ⟨mul32_one, fun s factor hf hp => ⟨s.acc.map (mul32 · factor),
    AccumulatorCommands.exec_accScale hf hp factor, List.length_map _, fun k v hv => ?_⟩⟩
  rw [List.getElem?_map, hv, Option.map_some]

end Sys2Proof.AccumulatorScale
end

section
/-!
The conversion to PCM (43_accumulator.md R137, R138). `Ends` holds what the ends of the four PCM formats have in common,
by evaluation of fixed numbers; from there on the conversion is proved for all formats at once. The integer of a sample
lies between the ends, so its two's-complement pattern stands for it.
-/

namespace Sys2Proof.PcmConversion

open Sys2Proof Sys2Proof.Machine Sys2Proof.FloatPatterns

/-! ## NaN samples -/

/-- The product of a NaN sample is the quiet NaN. -/
theorem mul64_widen_of_isNaN {v : F32} (h : isNaN32 v = true) (y : F64) :
    mul64 (widen v) y = BitVec.ofNat 64 binary64.nanBits := by
  have hwiden : widen v = BitVec.ofNat 64 binary64.nanBits := by
    rw [widen, convertFloat, unpack_eq_nan (f := binary32) (by decide) (by decide) v.isLt h]
  have hnan : binary64.unpack (BitVec.ofNat 64 binary64.nanBits).toNat = .nan := by decide +kernel
  rw [hwiden, mul64, FloatFormat.mul, hnan]

theorem isNaN64_of_le64 {x y : F64} (h : le64 x y = true) : isNaN64 x = false ∧ isNaN64 y = false :=
  have ⟨hx, hy, _⟩ := (le_iff binary64 _ _).mp h
  ⟨hx, hy⟩

theorem le64_trans {x y z : F64} (hxy : le64 x y = true) (hyz : le64 y z = true) : le64 x z = true := by
  simp only [le64, le_iff] at *
  obtain ⟨hx, -, hle⟩ := hxy
  obtain ⟨-, hz, hle'⟩ := hyz
  exact ⟨hx, hz, hle.trans hle'⟩

/-- A sample whose product compares with anything is no NaN. -/
theorem isNaN32_eq_false_of_product {v : F32} {y : F64} (h : isNaN64 (mul64 (widen v) y) = false) :
    isNaN32 v = false := by
  by_contra hnan
  rw [mul64_widen_of_isNaN (Bool.not_eq_false _ ▸ hnan)] at h
  revert h
  decide +kernel

/-! ## The formats (R137) -/

/-- What the ends of a format have in common: binary64 holds `-maxAmp` and `maxAmp`, they differ, and the samples
`-1.0f` and `1.0f` reach them. -/
structure Ends (maxAmp : Nat) : Prop where
  finite : (nat64 maxAmp).toNat < binary64.infBits
  value : magnitudeValue binary64 (nat64 maxAmp).toNat = maxAmp * 2 ^ binary64.scale
  negated : (neg64 (nat64 maxAmp)).toNat = binary64.withSign true (nat64 maxAmp).toNat
  apart : le64 (nat64 maxAmp) (neg64 (nat64 maxAmp)) = false
  one : le64 (nat64 maxAmp) (mul64 (widen 0x3F800000#32) (nat64 maxAmp)) = true
  negOne : le64 (mul64 (widen 0xBF800000#32) (nat64 maxAmp)) (neg64 (nat64 maxAmp)) = true

theorem ends_of_mem {maxAmp : Nat} (h : maxAmp ∈ [127, 32767, 8388607, 2147483647]) : Ends maxAmp := by
  simp only [List.mem_cons, List.not_mem_nil, or_false] at h
  obtain rfl | rfl | rfl | rfl := h <;> constructor <;> decide +kernel

/-- `f` gives the low `bits` bits of the integer, and they have room for its sign. -/
structure PcmFormat (f : SampleFormat) (bits maxAmp : Nat) : Prop extends Ends maxAmp where
  pattern : ∀ v, (pcm f v).toNat = (pcmInteger maxAmp v % (2 ^ bits : Nat)).toNat
  room : maxAmp * 2 < 2 ^ bits

theorem toNat_setWidth_ofInt {n : Nat} (hn : n ≤ 32) (i : Int) :
    ((BitVec.ofInt n i).setWidth 32).toNat = (i % (2 ^ n : Nat)).toNat := by
  rw [BitVec.toNat_setWidth_of_le hn, BitVec.toNat_ofInt]

theorem pcmFormat_of_table {f : SampleFormat} {bits maxAmp : Nat} (h : (f, bits, maxAmp) ∈
    [(.pcm8, 8, 127), (.pcm16, 16, 32767), (.pcm24, 24, 8388607), (.pcm32, 32, 2147483647)]) :
    PcmFormat f bits maxAmp := by
  simp only [List.mem_cons, List.not_mem_nil, or_false, Prod.mk.injEq] at h
  obtain ⟨rfl, rfl, rfl⟩ | ⟨rfl, rfl, rfl⟩ | ⟨rfl, rfl, rfl⟩ | ⟨rfl, rfl, rfl⟩ := h
  · exact ⟨ends_of_mem (by decide), fun _ => toNat_setWidth_ofInt (by decide) _, by decide⟩
  · exact ⟨ends_of_mem (by decide), fun _ => toNat_setWidth_ofInt (by decide) _, by decide⟩
  · exact ⟨ends_of_mem (by decide), fun _ => toNat_setWidth_ofInt (by decide) _, by decide⟩
  · exact ⟨ends_of_mem (by decide), fun _ => BitVec.toNat_ofInt .., by decide⟩

/-! ## The integer of a sample (R138) -/

/-- The integer nearest to `k * 2^-scale`, ties up: what rounding away from zero makes of a magnitude. -/
def nearest (scale k : Nat) : Nat := (2 * k + 2 ^ scale) / 2 ^ (scale + 1)

theorem nearest_spec (scale k : Nat) : nearest scale k * 2 ^ (scale + 1) ≤ 2 * k + 2 ^ scale ∧
    2 * k + 2 ^ scale < (nearest scale k + 1) * 2 ^ (scale + 1) :=
  ⟨Nat.div_mul_le_self .., (Nat.div_lt_iff_lt_mul (Nat.two_pow_pos _)).mp (Nat.lt_succ_self _)⟩

/-- Rounding does not pass the end that the value does not reach. -/
theorem nearest_le {scale k m : Nat} (h : k < m * 2 ^ scale) : nearest scale k ≤ m := by
  have hpos := Nat.two_pow_pos scale
  have hnext : (m + 1) * 2 ^ (scale + 1) = 2 * (m * 2 ^ scale) + 2 * 2 ^ scale := by ring
  rw [nearest, ← Nat.lt_add_one_iff, Nat.div_lt_iff_lt_mul (Nat.two_pow_pos _), hnext]
  omega

theorem roundAway_of_fin {x : F64} {neg : Bool} {k : Nat} (h : binary64.unpack x.toNat = .fin neg k) :
    roundAway x = if neg then -(nearest binary64.scale k : Int) else (nearest binary64.scale k : Int) := by
  simp only [roundAway, h, nearest]

theorem pcmInteger_of_isNaN {v : F32} (maxAmp : Nat) (h : isNaN32 v = true) : pcmInteger maxAmp v = 0 := if_pos h

section
variable {maxAmp : Nat} {v : F32}

theorem pcmInteger_of_above (h : le64 (nat64 maxAmp) (mul64 (widen v) (nat64 maxAmp)) = true) :
    pcmInteger maxAmp v = maxAmp := by
  have hnan := isNaN32_eq_false_of_product (isNaN64_of_le64 h).2
  simp only [pcmInteger, hnan, h, Bool.false_eq_true, if_false, if_true]

variable (hends : Ends maxAmp)
include hends

theorem pcmInteger_of_below (h : le64 (mul64 (widen v) (nat64 maxAmp)) (neg64 (nat64 maxAmp)) = true) :
    pcmInteger maxAmp v = -(maxAmp : Int) := by
  have hnan := isNaN32_eq_false_of_product (isNaN64_of_le64 h).1
  have hupper : le64 (nat64 maxAmp) (mul64 (widen v) (nat64 maxAmp)) = false :=
    Bool.eq_false_iff.mpr fun habove => Bool.eq_false_iff.mp hends.apart (le64_trans habove h)
  simp only [pcmInteger, hnan, hupper, h, Bool.false_eq_true, if_false, if_true]

theorem value_lt_maxAmp {x : F64} {neg : Bool} {k : Nat} (hupper : le64 (nat64 maxAmp) x = false)
    (hlower : le64 x (neg64 (nat64 maxAmp)) = false) (hvalue : binary64.unpack x.toNat = .fin neg k) :
    k < maxAmp * 2 ^ binary64.scale := by
  rw [le64, hends.negated] at hlower
  rw [← hends.value]
  exact value_lt_of_between (f := binary64) (by decide) (by decide) x.isLt hvalue hends.finite hupper hlower

/-- Between the ends the rounded value is between them too; what is not finite is rounded to 0. -/
theorem roundAway_natAbs_le {x : F64} (hupper : le64 (nat64 maxAmp) x = false)
    (hlower : le64 x (neg64 (nat64 maxAmp)) = false) : (roundAway x).natAbs ≤ maxAmp := by
  cases hvalue : binary64.unpack x.toNat with
  | nan => simp [roundAway, hvalue]
  | inf neg => simp [roundAway, hvalue]
  | fin neg k =>
    have hle := nearest_le (value_lt_maxAmp hends hupper hlower hvalue)
    rw [roundAway_of_fin hvalue]
    split <;> omega

theorem pcmInteger_natAbs_le (v : F32) : (pcmInteger maxAmp v).natAbs ≤ maxAmp := by
  unfold pcmInteger
  dsimp only
  split_ifs with hnan hupper hlower
  · exact Nat.zero_le _
  · omega
  · omega
  · exact roundAway_natAbs_le hends (Bool.eq_false_iff.mpr hupper) (Bool.eq_false_iff.mpr hlower)

end

/-! ## The pattern of a sample -/

section
variable {f : SampleFormat} {bits maxAmp : Nat} (h : PcmFormat f bits maxAmp) (v : F32)
include h

theorem pcm_toNat_lt : (pcm f v).toNat < 2 ^ bits := by
  have hpos : (0 : Int) < (2 ^ bits : Nat) := mod_cast Nat.two_pow_pos bits
  have hlt := Int.emod_lt_of_pos (pcmInteger maxAmp v) hpos
  rw [h.pattern]
  omega

/-- The two's-complement value of the pattern is the integer. -/
theorem bmod_pcm : Int.bmod (pcm f v).toNat (2 ^ bits) = pcmInteger maxAmp v := by
  have hpos : (0 : Int) < (2 ^ bits : Nat) := mod_cast Nat.two_pow_pos bits
  have hbound := pcmInteger_natAbs_le h.toEnds v
  have hroom := h.room
  rw [h.pattern, Int.toNat_of_nonneg (Int.emod_nonneg _ hpos.ne'), Int.emod_bmod]
  exact Int.bmod_eq_of_le_mul_two (by omega) (by omega)

theorem pcm_of_isNaN {v : F32} (hnan : isNaN32 v = true) : pcm f v = 0#32 := by
  apply BitVec.eq_of_toNat_eq
  rw [h.pattern, pcmInteger_of_isNaN _ hnan, Int.zero_emod]
  rfl

end

/-- Settles O40: the integer of the sample by the tests of R138, read off its pattern. -/
theorem pcmStaysInRange : Obligations.PcmStaysInRange := by
  refine ⟨fun _ => rfl, ?_⟩
  rintro f v x bits maxAmp htable rfl
  have h := pcmFormat_of_table htable
  have hbound := pcmInteger_natAbs_le h.toEnds v
  have hscale : 1074 = binary64.scale := rfl
  have hdouble : 1075 = binary64.scale + 1 := rfl
  rw [bmod_pcm h, hscale, hdouble]
  refine ⟨pcm_toNat_lt h v, by omega, by omega, pcm_of_isNaN h, ?_, ?_, pcmInteger_of_above,
    pcmInteger_of_below h.toEnds, fun neg k hnan hupper hlower hvalue => ⟨nearest _ k, ?_, nearest_spec _ k⟩⟩
  · rintro rfl
    exact pcmInteger_of_above h.one
  · rintro rfl
    exact pcmInteger_of_below h.toEnds h.negOne
  · rw [← roundAway_of_fin hvalue]
    simp only [pcmInteger, hnan, hupper, hlower, Bool.false_eq_true, if_false]

end Sys2Proof.PcmConversion
end

section
/-!
Rounding is monotone (00_scope.md R11): a value between two values that a format holds rounds to one between them. This
bounds a chain of rounded operations by the exact ends of its range.
-/

namespace Sys2Proof.RoundingBounds

open Sys2Proof Sys2Proof.Machine Sys2Proof.ExactFloat Sys2Proof.FloatPatterns

/-! ## Monotonicity -/

theorem div_le_roundHalfEven (n d : Nat) : n / d ≤ roundHalfEven n d := by
  dsimp only [roundHalfEven]
  split_ifs <;> omega

theorem roundHalfEven_le_succ (n d : Nat) : roundHalfEven n d ≤ n / d + 1 := by
  dsimp only [roundHalfEven]
  split_ifs <;> omega

/-- With equal quotients the greater remainder is rounded up no less. -/
theorem roundHalfEven_mono {n n' : Nat} (d : Nat) (h : n ≤ n') : roundHalfEven n d ≤ roundHalfEven n' d := by
  obtain hlt | heq := (Nat.div_le_div_right (c := d) h).lt_or_eq
  · exact (roundHalfEven_le_succ n d).trans (hlt.trans_le (div_le_roundHalfEven n' d))
  · have hn := Nat.div_add_mod n d
    have hn' := Nat.div_add_mod n' d
    rw [heq] at hn
    dsimp only [roundHalfEven]
    rw [heq]
    split_ifs <;> omega

theorem roundMagnitude_eq (f : FloatFormat) (n d : Nat) : f.roundMagnitude n d =
    min (lastBit f (n / d) * 2 ^ (f.prec - 1) + roundHalfEven n (d * 2 ^ lastBit f (n / d))) f.infBits := rfl

section
variable {f : FloatFormat} (hprec : 1 ≤ f.prec)
include hprec

/-- The significand before rounding fits the format. -/
theorem roundHalfEven_le_two_pow (n d : Nat) :
    roundHalfEven n (d * 2 ^ lastBit f (n / d)) ≤ 2 ^ f.prec := by
  have hlt := div_lastBit_lt hprec (n / d)
  rw [Nat.div_div_eq_div_mul] at hlt
  exact (roundHalfEven_le_succ n _).trans hlt

/-- A greater last bit means a significand that uses all bits, so no carry makes up for it. -/
theorem roundMagnitude_mono (d : Nat) {n n' : Nat} (h : n ≤ n') : f.roundMagnitude n d ≤ f.roundMagnitude n' d := by
  have hlog : lastBit f (n / d) ≤ lastBit f (n' / d) := by
    simp only [lastBit, Nat.log2_eq_log_two]
    exact Nat.sub_le_sub_right (Nat.log_mono_right (Nat.div_le_div_right h)) _
  rw [roundMagnitude_eq, roundMagnitude_eq]
  refine min_le_min_right _ ?_
  obtain hlt | heq := hlog.lt_or_eq
  · have hcarry := roundHalfEven_le_two_pow hprec n d
    have hfull := le_div_lastBit hprec (v := n' / d) (by omega)
    rw [Nat.div_div_eq_div_mul] at hfull
    have hround := hfull.trans (div_le_roundHalfEven n' _)
    have hdouble := two_pow_prec hprec
    have hstep := Nat.mul_le_mul_right (2 ^ (f.prec - 1)) hlt
    rw [Nat.succ_mul] at hstep
    omega
  · rw [heq]
    exact Nat.add_le_add_left (roundHalfEven_mono _ h) _

end

/-! ## Values between two values that the format holds -/

theorem holds_zero {f : FloatFormat} (h : 1 < f.topExponent) : Holds f 0 where
  exact := Nat.dvd_zero _
  finite := by simpa [lastBit] using h

section
variable {f : FloatFormat} (hprec : 1 ≤ f.prec) (hwidth : f.prec + 2 ≤ f.width)
include hprec hwidth

/-- A held value rounds to a finite pattern, which stands for it. -/
theorem roundMagnitude_finite {v d : Nat} (hd : 0 < d) (h : Holds f v) :
    f.roundMagnitude (v * d) d < f.infBits ∧ magnitudeValue f (f.roundMagnitude (v * d) d) = v := by
  have hlt : f.prec < f.width := by omega
  have hinf := infBits_lt_signBit hprec hlt
  have hbound : f.roundMagnitude (v * d) d ≤ f.infBits := Nat.min_le_right ..
  have hvalue := unpack_roundMagnitude hprec hlt.le hd h
  have hpattern := unpack_withSign hprec hlt (hbound.trans_lt hinf) false
  rw [withSign_false, hvalue] at hpattern
  split at hpattern
  · next hfinite => exact ⟨hfinite, (FloatValue.fin.inj hpattern).2.symm⟩
  · split at hpattern <;> cases hpattern

/-- Rounding a value that the format holds changes nothing, whatever its sign. -/
theorem unpack_round_of_holds {v d : Nat} (hd : 0 < d) (h : Holds f v) (neg : Bool) :
    f.unpack (f.round neg (v * d) d) = .fin neg v := by
  have hlt : f.prec < f.width := by omega
  obtain ⟨hfinite, hvalue⟩ := roundMagnitude_finite hprec hwidth hd h
  rw [FloatFormat.round, unpack_withSign hprec hlt (hfinite.trans (infBits_lt_signBit hprec hlt)), if_pos hfinite,
    hvalue]

theorem unpack_round_between {lo hi n d : Nat} (hd : 0 < d) (hlo : Holds f lo) (hhi : Holds f hi)
    (hlower : lo * d ≤ n) (hupper : n ≤ hi * d) (neg : Bool) :
    ∃ k, f.unpack (f.round neg n d) = .fin neg k ∧ lo ≤ k ∧ k ≤ hi := by
  have hlt : f.prec < f.width := by omega
  obtain ⟨-, hlovalue⟩ := roundMagnitude_finite hprec hwidth hd hlo
  obtain ⟨hfinite, hhivalue⟩ := roundMagnitude_finite hprec hwidth hd hhi
  have hmonoLo := (magnitudeValue_strictMono f).monotone (roundMagnitude_mono hprec d hlower)
  have hmonoHi := roundMagnitude_mono hprec d hupper
  have hround := hmonoHi.trans_lt hfinite
  refine ⟨magnitudeValue f (f.roundMagnitude n d), ?_, hlovalue ▸ hmonoLo,
    hhivalue ▸ (magnitudeValue_strictMono f).monotone hmonoHi⟩
  rw [FloatFormat.round, unpack_withSign hprec hlt (hround.trans (infBits_lt_signBit hprec hlt)), if_pos hround]

theorem round_lt_two_pow (neg : Bool) (n d : Nat) : f.round neg n d < 2 ^ f.width := by
  have hlt : f.prec < f.width := by omega
  have hinf := infBits_lt_signBit hprec hlt
  have hbound : f.roundMagnitude n d ≤ f.infBits := Nat.min_le_right ..
  have hdouble : 2 ^ f.width = 2 * f.signBit := by
    rw [FloatFormat.signBit, ← Nat.pow_succ']
    congr 1
    omega
  rw [FloatFormat.round, FloatFormat.withSign]
  split <;> omega

end

end Sys2Proof.RoundingBounds
end

section
/-!
The counts a run derives from its parameters (44_synth_control.md R154, R155, R159): each is a chain of rounded
operations on values from 0 up, bounded operation by operation, and a truncation of its result (00_scope.md R15).
-/

namespace Sys2Proof.DerivedCounts

open Sys2Proof Sys2Proof.Machine Sys2Proof.ExactFloat Sys2Proof.FloatPatterns Sys2Proof.RoundingBounds

/-! ## Truncation (R15) -/

theorem integerPart_lt {k bound scale : Nat} (h : k < bound * 2 ^ scale) : k / 2 ^ scale < bound :=
  (Nat.div_lt_iff_lt_mul (Nat.two_pow_pos _)).mpr h

section
variable {f : FloatFormat} {x k : Nat} {neg : Bool} (hx : f.unpack x = .fin neg k) (hneg : neg = true → k = 0)
  (hk : k < 2 ^ 31 * 2 ^ f.scale)
include hx hneg hk

/-- From 0 up to below `2^31`, both zeros included, the conversion is the integer part. -/
theorem truncNat?_eq : f.truncNat? x = some (k / 2 ^ f.scale) := by
  have hlt : k / 2 ^ f.scale < 2 ^ 31 := integerPart_lt hk
  have hsign : (neg && decide (k ≠ 0)) = false := by
    cases neg with
    | false => rfl
    | true => simpa using hneg rfl
  rw [FloatFormat.truncNat?, hx]
  simp only [hsign, Bool.false_or, decide_eq_true_eq, if_neg (Nat.not_le.mpr hlt)]

end

section
variable {k : Nat} {neg : Bool}

theorem truncU32_toNat {x : F32} (hx : binary32.unpack x.toNat = .fin neg k) (hneg : neg = true → k = 0)
    (hk : k < 2 ^ 31 * 2 ^ binary32.scale) : (truncU32 x).toNat = k / 2 ^ binary32.scale := by
  have hlt : k / 2 ^ binary32.scale < 2 ^ 31 := integerPart_lt hk
  rw [truncU32, truncNat?_eq hx hneg hk]
  generalize k / 2 ^ binary32.scale = n at hlt ⊢
  exact Nat.mod_eq_of_lt (hlt.trans (by decide))

theorem truncU64_toNat {x : F64} (hx : binary64.unpack x.toNat = .fin neg k) (hneg : neg = true → k = 0)
    (hk : k < 2 ^ 31 * 2 ^ binary64.scale) : (truncU64 x).toNat = k / 2 ^ binary64.scale := by
  have hlt : k / 2 ^ binary64.scale < 2 ^ 31 := integerPart_lt hk
  rw [truncU64, truncNat?_eq hx hneg hk]
  generalize k / 2 ^ binary64.scale = n at hlt ⊢
  exact Nat.mod_eq_of_lt (hlt.trans (by decide))

/-- Below `2^31` in magnitude nothing saturates and the sign bit of the word is the sign. -/
theorem truncI32_toInt {x : F32} (hx : binary32.unpack x.toNat = .fin neg k) (hk : k < 2 ^ 31 * 2 ^ binary32.scale) :
    (truncI32 x).toInt =
      if neg then -((k / 2 ^ binary32.scale : Nat) : Int) else ((k / 2 ^ binary32.scale : Nat) : Int) := by
  have hlt : k / 2 ^ binary32.scale < 2 ^ 31 := integerPart_lt hk
  simp only [truncI32, hx]
  generalize k / 2 ^ binary32.scale = n at hlt ⊢
  have hmin : min n (2 ^ 31 - 1) = n := by omega
  rw [hmin]
  cases neg with
  | false => exact (BitVec.toInt_ofNat ..).trans (Int.bmod_eq_of_le_mul_two (by omega) (by omega))
  | true => exact (BitVec.toInt_ofInt ..).trans (Int.bmod_eq_of_le_mul_two (by omega) (by omega))

end

/-! ## Unary minus (R11) -/

theorem xor_two_pow {m n : Nat} (h : m < 2 ^ n) : m ^^^ 2 ^ n = 2 ^ n + m := by
  have hclear : m.testBit n = false := Nat.testBit_lt_two_pow h
  have hor := Nat.two_pow_add_eq_or_of_lt h 1
  rw [Nat.mul_one] at hor
  rw [hor]
  apply Nat.eq_of_testBit_eq
  intro i
  rw [Nat.testBit_xor, Nat.testBit_or, Nat.testBit_two_pow]
  by_cases hi : n = i
  · simp [← hi, hclear]
  · simp [hi]

/-- Unary minus changes the sign and keeps the magnitude. -/
theorem negate_withSign {f : FloatFormat} {magnitude : Nat} (h : magnitude < f.signBit) (neg : Bool) :
    f.negate (f.withSign neg magnitude) = f.withSign (!neg) magnitude := by
  have hxor : magnitude ^^^ f.signBit = f.signBit + magnitude := xor_two_pow h
  cases neg with
  | false => exact hxor
  | true =>
    change (f.signBit + magnitude) ^^^ f.signBit = magnitude
    rw [← hxor, Nat.xor_xor_cancel_right]

theorem unpack_negate {f : FloatFormat} (hprec : 1 ≤ f.prec) (hwidth : f.prec < f.width) {x k : Nat} {neg : Bool}
    (hx : x < 2 ^ f.width) (h : f.unpack x = .fin neg k) : f.unpack (f.negate x) = .fin (!neg) k := by
  obtain ⟨magnitude, hfinite, rfl, rfl⟩ := unpack_eq_fin hprec hwidth hx h
  have hmag := hfinite.trans (infBits_lt_signBit hprec hwidth)
  rw [negate_withSign hmag, unpack_withSign hprec hwidth hmag, if_pos hfinite]

/-! ## Values between two integers -/

/-- The binary32 value `x` is a zero or positive, from `lo` to `hi`. -/
def Within (lo hi : Nat) (x : F32) : Prop :=
  ∃ neg k, binary32.unpack x.toNat = .fin neg k ∧ (neg = true → k = 0) ∧
    lo * 2 ^ binary32.scale ≤ k ∧ k ≤ hi * 2 ^ binary32.scale

theorem holds_integer {n : Nat} (hn : n < 2 ^ 24) : Holds binary32 (n * 2 ^ binary32.scale) :=
  holds_binary32 149 hn (by decide)

theorem within_nat32 {n : Nat} (hn : n < 2 ^ 24) : Within n n (nat32 n) :=
  ⟨false, _, (nat32_represents hn).value, nofun, le_rfl, le_rfl⟩

theorem within_round {lo hi n d : Nat} {neg : Bool} (hd : 0 < d) (hhi : hi < 2 ^ 24) (hneg : neg = true → n = 0)
    (hlower : lo * 2 ^ binary32.scale * d ≤ n) (hupper : n ≤ hi * 2 ^ binary32.scale * d) :
    Within lo hi (BitVec.ofNat 32 (binary32.round neg n d)) := by
  have hle : lo ≤ hi :=
    Nat.le_of_mul_le_mul_right (Nat.le_of_mul_le_mul_right (hlower.trans hupper) hd) (Nat.two_pow_pos _)
  have hnat : (BitVec.ofNat 32 (binary32.round neg n d)).toNat = binary32.round neg n d :=
    Nat.mod_eq_of_lt (round_lt_two_pow (f := binary32) (by decide) (by decide) neg n d)
  cases neg with
  | false =>
    obtain ⟨k, hk, hbounds⟩ := unpack_round_between (f := binary32) (by decide) (by decide) hd
      (holds_integer (hle.trans_lt hhi)) (holds_integer hhi) hlower hupper false
    exact ⟨false, k, hnat.symm ▸ hk, nofun, hbounds⟩
  | true =>
    obtain rfl := hneg rfl
    have hzero : lo * 2 ^ binary32.scale ≤ 0 := Nat.le_of_mul_le_mul_right (hlower.trans_eq (Nat.zero_mul d).symm) hd
    have hround := unpack_round_of_holds (f := binary32) (by decide) (by decide) hd (holds_zero (by decide)) true
    rw [Nat.zero_mul] at hround
    exact ⟨true, 0, hnat.symm ▸ hround, fun _ => rfl, hzero, Nat.zero_le _⟩

/-- Summands from 0 up, zeros of either sign among them. -/
theorem signedSum_nonneg {a b : Bool} {m n : Nat} (ha : a = true → m = 0) (hb : b = true → n = 0) :
    (signedSum a m b n).2 = m + n ∧ ((signedSum a m b n).1 = true → m + n = 0) := by
  cases a with
  | false =>
    cases b with
    | false => exact ⟨rfl, nofun⟩
    | true =>
      obtain rfl := hb rfl
      obtain rfl | hm := Nat.eq_zero_or_pos m
      · exact ⟨rfl, nofun⟩
      · simp [signedSum, hm]
  | true =>
    obtain rfl := ha rfl
    cases b with
    | false =>
      obtain rfl | hn := Nat.eq_zero_or_pos n
      · exact ⟨rfl, nofun⟩
      · simp [signedSum, hn]
    | true =>
      obtain rfl := hb rfl
      exact ⟨rfl, fun _ => rfl⟩

section
variable {a b c d : Nat} {x y : F32}

theorem Within.mono (hx : Within a b x) (h : c ≤ a) : Within c b x := by
  obtain ⟨neg, k, hk, hneg, hlower, hupper⟩ := hx
  exact ⟨neg, k, hk, hneg, (Nat.mul_le_mul_right _ h).trans hlower, hupper⟩

theorem Within.mul (hx : Within 0 a x) (hy : Within 0 b y) (hab : a * b < 2 ^ 24) : Within 0 (a * b) (mul32 x y) := by
  obtain ⟨sx, m, hm, hsx, -, hma⟩ := hx
  obtain ⟨sy, n, hn, hsy, -, hnb⟩ := hy
  have hmul : binary32.mul x.toNat y.toNat = binary32.round (sx ^^ sy) (m * n) (2 ^ binary32.scale) := by
    rw [FloatFormat.mul, hm, hn]
  have hsign : (sx ^^ sy) = true → m * n = 0 := by
    cases sx with
    | false => exact fun h => by rw [hsy (by simpa using h), Nat.mul_zero]
    | true => exact fun _ => by rw [hsx rfl, Nat.zero_mul]
  rw [mul32, hmul]
  refine within_round (Nat.two_pow_pos _) hab hsign (by simp) ((Nat.mul_le_mul hma hnb).trans_eq ?_)
  ring

theorem Within.add (hx : Within a b x) (hy : Within c d y) (hbd : b + d < 2 ^ 24) :
    Within (a + c) (b + d) (add32 x y) := by
  obtain ⟨sx, m, hm, hsx, hma, hmb⟩ := hx
  obtain ⟨sy, n, hn, hsy, hnc, hnd⟩ := hy
  have hadd : binary32.add x.toNat y.toNat = binary32.round (signedSum sx m sy n).1 (signedSum sx m sy n).2 1 := by
    rw [FloatFormat.add, hm, hn]
  obtain ⟨hmagnitude, hsign⟩ := signedSum_nonneg hsx hsy
  rw [add32, hadd, hmagnitude]
  refine within_round Nat.one_pos hbd hsign ?_ ?_ <;> rw [Nat.mul_one, Nat.add_mul]
  · exact Nat.add_le_add hma hnc
  · exact Nat.add_le_add hmb hnd

/-- `1.0f - x` stays in [0, 1]. -/
theorem Within.one_sub (hx : Within 0 1 x) : Within 0 1 (sub32 one32 x) := by
  obtain ⟨neg, k, hk, hneg, -, hle⟩ := hx
  have hone : binary32.unpack one32.toNat = .fin false (2 ^ binary32.scale) := AccumulatorScale.unpack_one32
  have hminus := unpack_negate (f := binary32) (by decide) (by decide) x.isLt hk
  rw [Nat.one_mul] at hle
  have hsub : binary32.sub one32.toNat x.toNat =
      binary32.round (signedSum false (2 ^ binary32.scale) (!neg) k).1
        (signedSum false (2 ^ binary32.scale) (!neg) k).2 1 := by
    rw [FloatFormat.sub, FloatFormat.add, hone, hminus]
  have hdifference : signedSum false (2 ^ binary32.scale) (!neg) k = (false, 2 ^ binary32.scale - k) := by
    have hpos := Nat.two_pow_pos binary32.scale
    generalize 2 ^ binary32.scale = unit at hle hpos
    cases neg with
    | true =>
      obtain rfl := hneg rfl
      rfl
    | false =>
      obtain hlt | rfl := hle.lt_or_eq
      · simp [signedSum, hlt]
      · simp [signedSum]
  rw [sub32, hsub, hdifference]
  refine within_round Nat.one_pos (by decide) nofun (by simp) ?_
  rw [Nat.mul_one, Nat.one_mul]
  exact Nat.sub_le _ _

theorem Within.trunc (hx : Within a b x) (hb : b < 2 ^ 31) : a ≤ (truncU32 x).toNat ∧ (truncU32 x).toNat ≤ b := by
  obtain ⟨neg, k, hk, hneg, hlower, hupper⟩ := hx
  have hlt : k < 2 ^ 31 * 2 ^ binary32.scale := hupper.trans_lt (Nat.mul_lt_mul_of_pos_right hb (Nat.two_pow_pos _))
  rw [truncU32_toNat hk hneg hlt]
  exact ⟨(Nat.le_div_iff_mul_le (Nat.two_pow_pos _)).mpr hlower, Nat.div_le_of_le_mul (by rwa [Nat.mul_comm])⟩

end

/-! ## Parameters in [0, 1] -/

theorem within_of_legal {x : F32} (hlower : le32 0#32 x = true) (hupper : le32 x 0x3F800000#32 = true) :
    Within 0 1 x := by
  have hpattern := (SystemCommands.legalUnsigned_iff x).mp (Bool.and_eq_true .. ▸ ⟨hlower, hupper⟩)
  obtain hle | hzero := hpattern
  · have hone : magnitudeValue binary32 0x3F800000 = 2 ^ binary32.scale := by decide
    have hvalue := unpack_withSign (f := binary32) (by decide) (by decide)
      (hle.trans_lt (by decide)) false
    rw [withSign_false, if_pos (hle.trans_lt (by decide))] at hvalue
    refine ⟨false, _, hvalue, nofun, by simp, ?_⟩
    rw [Nat.one_mul, ← hone]
    exact (magnitudeValue_strictMono binary32).monotone hle
  · obtain rfl : x = 0x80000000#32 := BitVec.eq_of_toNat_eq hzero
    exact ⟨true, 0, by decide, fun _ => rfl, by simp, Nat.zero_le _⟩

/-- A stage lasts at most 100000 iterations (R155). -/
theorem stageLength_le {x : F32} (hx : Within 0 1 x) : (stageLength x).toNat ≤ 100000 := by
  have hscale : Within 0 100000 (nat32 100000) := (within_nat32 (by decide)).mono (Nat.zero_le _)
  exact (((hx.mul hx (by decide)).mul hscale (by decide)).trunc (by decide)).2

/-- A trigger limit is between 32 and 20032 iterations (R154, R159). -/
theorem speedLimit_bounds {x : F32} (hx : Within 0 1 x) :
    32 ≤ (speedLimit x).toNat ∧ (speedLimit x).toNat ≤ 20032 := by
  have ht := hx.one_sub
  have hscale : Within 0 20000 (nat32 20000) := (within_nat32 (by decide)).mono (Nat.zero_le _)
  have hoffset : Within 32 32 (nat32 32) := within_nat32 (by decide)
  exact (((ht.mul ht (by decide)).mul hscale (by decide)).add hoffset (by decide)).trunc (by decide)

/-- Settles O44: the two chains of operations and the three truncations. -/
theorem derivedCountsAreBounded : Obligations.DerivedCountsAreBounded := by
  have hscale : 1074 = binary64.scale := rfl
  rw [Obligations.DerivedCountsAreBounded, hscale]
  refine ⟨fun x hlower hupper => ?_, fun x neg k => truncU32_toNat, fun x neg k => truncU64_toNat,
    fun x neg k => truncI32_toInt⟩
  have hx := within_of_legal hlower hupper
  exact ⟨stageLength_le hx, speedLimit_bounds hx⟩

end Sys2Proof.DerivedCounts
end

section
/-!
SYNTH_START (44_synth_control.md R151 to R159). The register groups are written with the literals of 00_scope.md R12, and
the filling of the banks does not see what else the start of a run writes.
-/

namespace Sys2Proof.RunStart

open Sys2Proof Sys2Proof.Machine Sys2Proof.Laws Sys2Proof.Noninterference

/-! ## Integer literals -/

theorem nat64_literals : nat64 10 = 0x4024000000000000#64 ∧ nat64 32 = 0x4040000000000000#64 ∧
    nat64 100 = 0x4059000000000000#64 := by decide +kernel

theorem nat32_20000 : nat32 20000 = 0x469C4000#32 := by decide
theorem nat32_32 : nat32 32 = 0x42000000#32 := by decide
theorem nat32_100000 : nat32 100000 = 0x47C35000#32 := by decide
theorem nat32_5 : nat32 5 = 0x40A00000#32 := by decide
theorem nat32_20 : nat32 20 = 0x41A00000#32 := by decide
theorem nat32_1020 : nat32 1020 = 0x447F0000#32 := by decide

/-! ## The register groups (R154 to R159) -/

theorem periodOf_eq (x : F64) :
    periodOf x = div64 0x4059000000000000#64 (add64 (mul64 x x) 0x3F50624DD2F1A9FC#64) := by
  rw [periodOf, nat64_literals.2.2, thousandth64]

theorem speedLimit_eq (x : F32) : speedLimit x = truncU32 (add32 (mul32
    (mul32 (sub32 0x3F800000#32 x) (sub32 0x3F800000#32 x)) 0x469C4000#32) 0x42000000#32) := by
  simp only [speedLimit, nat32_20000, nat32_32, one32]

theorem arpFactor_eq (x : F32) : arpFactor x =
    if le32 0#32 x then sub64 0x3FF0000000000000#64 (mul64 (mul64 (widen x) (widen x)) 0x3FECCCCCCCCCCCCD#64)
    else add64 0x3FF0000000000000#64 (mul64 (mul64 (widen x) (widen x)) 0x4024000000000000#64) := by
  simp only [arpFactor, nat64_literals.1, one64, nineTenths64]

theorem stageLength_eq (x : F32) : stageLength x = truncU32 (mul32 (mul32 x x) 0x47C35000#32) := by
  rw [stageLength, nat32_100000]

theorem resetFrequency_eq (p : Vector Word32 28) (bf fl fr fd am : F64) (t : F32) (hbf : bf = widen p[5])
    (hfl : fl = widen p[8]) (hfr : fr = widen p[6]) (hfd : fd = widen p[7]) (ham : am = widen p[15])
    (ht : t = sub32 0x3F800000#32 p[14]) : resetFrequency p = {
      period := div64 0x4059000000000000#64 (add64 (mul64 bf bf) 0x3F50624DD2F1A9FC#64)
      fperiod := div64 0x4059000000000000#64 (add64 (mul64 bf bf) 0x3F50624DD2F1A9FC#64)
      fmaxperiod := div64 0x4059000000000000#64 (add64 (mul64 fl fl) 0x3F50624DD2F1A9FC#64)
      fslide := sub64 0x3FF0000000000000#64 (mul64 (mul64 (mul64 fr fr) fr) 0x3F847AE147AE147B#64)
      fdslide := neg64 (mul64 (mul64 (mul64 fd fd) fd) 0x3EB0C6F7A0B5ED8D#64)
      arpMod := if le32 0#32 p[15] then sub64 0x3FF0000000000000#64 (mul64 (mul64 am am) 0x3FECCCCCCCCCCCCD#64)
        else add64 0x3FF0000000000000#64 (mul64 (mul64 am am) 0x4024000000000000#64)
      squareDuty := sub32 0x3F000000#32 (mul32 p[9] 0x3F000000#32)
      squareSlide := mul32 (neg32 p[10]) 0x3851B717#32
      arpTime := 0#32
      arpLimit := if eq32 p[14] 0x3F800000#32 then 0#32
        else truncU32 (add32 (mul32 (mul32 t t) 0x469C4000#32) 0x42000000#32) } := by
  subst hbf hfl hfr hfd ham ht
  rw [← periodOf_eq, ← periodOf_eq, ← arpFactor_eq, ← speedLimit_eq]
  rfl

theorem resetEnvelope_eq (p : Vector Word32 28) : resetEnvelope p = {
      stage := .attack, time := 0#32, vol := 0#32
      len0 := truncU32 (mul32 (mul32 p[1] p[1]) 0x47C35000#32)
      len1 := truncU32 (mul32 (mul32 p[2] p[2]) 0x47C35000#32)
      len2 := truncU32 (mul32 (mul32 p[3] p[3]) 0x47C35000#32) } := by
  rw [← stageLength_eq, ← stageLength_eq, ← stageLength_eq]
  rfl

theorem resetFilters_eq (p : Vector Word32 28) (w d : F32)
    (hw : w = mul32 (mul32 (mul32 p[16] p[16]) p[16]) 0x3DCCCCCD#32)
    (hd : d = mul32 (div32 0x40A00000#32 (add32 0x3F800000#32 (mul32 (mul32 p[18] p[18]) 0x41A00000#32)))
      (add32 0x3C23D70A#32 w)) : resetFilters p = {
      fltp := 0#32, fltdp := 0#32, fltw := w, fltphp := 0#32
      fltwD := add32 0x3F800000#32 (mul32 p[17] 0x38D1B717#32)
      fltdmp := if lt32 0x3F4CCCCD#32 d then 0x3F4CCCCD#32 else d
      flthp := mul32 (mul32 p[19] p[19]) 0x3DCCCCCD#32
      flthpD := add32 0x3F800000#32 (mul32 p[20] 0x399D4952#32) } := by
  subst hd hw
  rw [← nat32_5, ← nat32_20]
  rfl

theorem phaserTap_toNat (x : F32) : (phaserTap x).toNat = min 1023 (truncI32 x).toInt.natAbs := by
  rw [phaserTap, BitVec.toNat_ofNat]
  omega

theorem resetPhaser_eq (p : Vector Word32 28) (x y : F32) (hx : x = mul32 (mul32 p[21] p[21]) 0x447F0000#32)
    (hy : y = mul32 p[22] p[22]) :
    (resetPhaser p).fphase = (if lt32 p[21] 0#32 then neg32 x else x) ∧
    (resetPhaser p).fdphase = (if lt32 p[22] 0#32 then neg32 y else y) ∧
    (resetPhaser p).iphase.toNat = min 1023 (truncI32 (resetPhaser p).fphase).toInt.natAbs ∧
    (resetPhaser p).ipp = 0#10 := by
  subst hx hy
  rw [← nat32_1020]
  exact ⟨rfl, rfl, phaserTap_toNat _, rfl⟩

theorem resetRepeat_eq (p : Vector Word32 28) (t : F32) (ht : t = sub32 0x3F800000#32 p[23]) : resetRepeat p = {
      time := 0#32
      limit := if eq32 p[23] 0#32 then 0#32
        else truncU32 (add32 (mul32 (mul32 t t) 0x469C4000#32) 0x42000000#32) } := by
  subst ht
  rw [← speedLimit_eq]
  rfl

/-! ## The start of a run (R151, R152) -/

/-- What a run writes before it fills the banks neither reads nor writes the noise state. -/
theorem prepareRun_outsideNoise : OutsideNoise prepareRun :=
  ⟨fun _ => rfl, fun _ => rfl, fun _ _ => rfl, fun _ _ => rfl⟩

theorem fillBanks_prepareRun (s : State) :
    refreshPink (refreshWhite (prepareRun s)) = prepareRun (refreshPink (refreshWhite s)) := by
  have hwhite : refreshWhite (prepareRun s) = prepareRun (refreshWhite s) :=
    refreshBank_outsideNoise nextFloat_drawsFromNoise prepareRun_outsideNoise (fun _ _ _ => rfl) _ s
  rw [hwhite]
  exact refreshBank_outsideNoise pinkNextFloat_drawsFromNoise prepareRun_outsideNoise (fun _ _ _ => rfl) _ _

/-- The state after SYNTH_START, every field: the banks and the noise state come from the two fills, white first. -/
theorem startRun_fields (s : State) : startRun s = { s with
      acc := [], phase := 0#64, freq := resetFrequency s.params, env := resetEnvelope s.params
      flt := resetFilters s.params, vib := resetVibrato s.params, pha := resetPhaser s.params, phaser := []
      rep := resetRepeat s.params, lfsr := Config.lfsrReset
      status := { s.status with playing := true, stopCause := .running }
      nwhite := (refreshWhite s).nwhite, npink := (refreshPink (refreshWhite s)).npink
      pink := (refreshPink (refreshWhite s)).pink, rng := (refreshPink (refreshWhite s)).rng } := by
  have hpink := refreshPink_state (refreshWhite s)
  have hwhite := refreshWhite_state s
  rw [startRun_eq, fillBanks_prepareRun]
  generalize refreshPink (refreshWhite s) = u at hpink ⊢
  generalize refreshWhite s = t at hpink hwhite ⊢
  have hparams : u.params = s.params := by rw [hpink, hwhite]
  have hstatus : u.status = s.status := by rw [hpink, hwhite]
  have hports : u.ports = s.ports := by rw [hpink, hwhite]
  have hbank : u.nwhite = t.nwhite := by rw [hpink]
  simp only [beginRun, prepareRun, hparams, hstatus, hports, hbank]

theorem exec_synthStart {s : State} (hf : s.status.fatal = false) (hs : s.status.seeded = true) :
    exec .synthStart s = respond 0#64 (startRun s) := by
  rw [exec, execSynthStart, fatalGate_pass _ hf, seededGate_pass _ hs]

/-- Settles O43: the register groups by their equations, the state by its fields. -/
theorem synthStartStartsARun : Obligations.SynthStartStartsARun := by
  refine ⟨resetFrequency_eq, resetEnvelope_eq, resetFilters_eq, fun _ => rfl, resetPhaser_eq, resetRepeat_eq,
    fun s hf hs => ⟨_, exec_synthStart hf hs, ?_⟩⟩
  have hkey : (refreshPink (refreshWhite s)).pink.key = s.pink.key := by
    rw [PinkNoise.refreshPink_key, refreshWhite_state]
  have hrng := DrawCounts.startRun_rng s
  rw [startRun_fields] at hrng ⊢
  generalize refreshPink (refreshWhite s) = u at hkey hrng ⊢
  generalize refreshWhite s = t
  exact ⟨rfl, rfl, rfl, rfl, rfl, rfl, rfl, rfl, rfl, rfl, rfl, fun _ => rfl, rfl, rfl, rfl, hkey, hrng, rfl⟩

end Sys2Proof.RunStart
end

section
/-!
Steps 1 to 6 of the iteration (44_synth_control.md R162 to R167): the triggers, the slide, the ramps with their clamps,
and the stage advance.
-/

namespace Sys2Proof.ControlSteps

open Sys2Proof Sys2Proof.Machine Sys2Proof.Laws Sys2Proof.AccumulatorCommands

/-! ## Triggers (R162, R163) -/

/-- Below its limit, or without one, a counter triggers nothing. -/
theorem not_triggered {limit time : Word32} (h : limit = 0#32 ∨ time.toNat < limit.toNat) :
    ¬ (limit ≠ 0#32 ∧ limit ≤ time) := by
  rintro ⟨hne, hle⟩
  obtain hzero | hlt := h
  · exact hne hzero
  · exact hlt.not_ge (BitVec.le_def.mp hle)

theorem repeatStep_triggered {s : State} (hlimit : s.rep.limit ≠ 0#32)
    (htime : s.rep.limit.toNat ≤ (s.rep.time + 1#32).toNat) : repeatStep s = { s with
      rep := { s.rep with time := 0#32 }, freq := resetFrequency s.params, env := resetEnvelope s.params } :=
  if_pos ⟨hlimit, BitVec.le_def.mpr htime⟩

theorem repeatStep_waiting {s : State} (h : s.rep.limit = 0#32 ∨ (s.rep.time + 1#32).toNat < s.rep.limit.toNat) :
    repeatStep s = { s with rep := { s.rep with time := s.rep.time + 1#32 } } :=
  if_neg (not_triggered h)

theorem arpeggio_triggered {f : FreqRegs} (hlimit : f.arpLimit ≠ 0#32)
    (htime : f.arpLimit.toNat ≤ (f.arpTime + 1#32).toNat) : arpeggio f = { f with
      arpTime := f.arpTime + 1#32, arpLimit := 0#32, fperiod := mul64 f.fperiod f.arpMod } :=
  if_pos ⟨hlimit, BitVec.le_def.mpr htime⟩

theorem arpeggio_waiting {f : FreqRegs} (h : f.arpLimit = 0#32 ∨ (f.arpTime + 1#32).toNat < f.arpLimit.toNat) :
    arpeggio f = { f with arpTime := f.arpTime + 1#32 } :=
  if_neg (not_triggered h)

/-- The arpeggio is one-shot: without a limit the period is left alone for good. -/
theorem arpeggio_iterate_fperiod {f : FreqRegs} (h : f.arpLimit = 0#32) (n : Nat) :
    (arpeggio^[n] f).fperiod = f.fperiod := by
  induction n generalizing f with
  | zero => rfl
  | succ n ih =>
    rw [Function.iterate_succ_apply, arpeggio_waiting (.inl h)]
    exact ih (f := { f with arpTime := f.arpTime + 1#32 }) h

/-- Settles O45: both steps by their test. -/
theorem repeatAndArpeggioTrigger : Obligations.RepeatAndArpeggioTrigger := by
  refine ⟨fun _ => rfl, fun f => arpeggio_waiting, fun f n hlimit htime => ⟨arpeggio_triggered hlimit htime, ?_⟩,
    fun s => ⟨repeatStep_triggered, repeatStep_waiting⟩⟩
  rw [arpeggio_triggered hlimit htime]
  exact arpeggio_iterate_fperiod rfl n

/-! ## Slide, effective period and ramps (R164 to R166) -/

theorem lt64_irrefl (x : F64) : lt64 x x = false := by simp [lt64, FloatFormat.lt]

/-- `s` after step 3 without its limit: the slide, and the period `fperiod`. -/
def slid (fperiod : F64) (s : State) : State :=
  { s with freq := { s.freq with fslide := add64 s.freq.fslide s.freq.fdslide, fperiod := fperiod } }

section
variable {s : State} {fperiod : F64} (h : fperiod = mul64 s.freq.fperiod (add64 s.freq.fslide s.freq.fdslide))
include h

theorem slideStep_free (hlimit : lt64 s.freq.fmaxperiod fperiod = false) : slideStep s = slid fperiod s := by
  subst h
  exact if_neg (Bool.eq_false_iff.mp hlimit)

theorem slideStep_limited (hlimit : lt64 s.freq.fmaxperiod fperiod = true) : slideStep s =
    if lt32 0#32 (s.p 8) then endRun .frequencyLimit (slid s.freq.fmaxperiod s) else slid s.freq.fmaxperiod s := by
  subst h
  exact if_pos hlimit

end

/-- Step 3 leaves the period not above its limit, in each of its branches. -/
theorem slideStep_fperiod (s : State) : lt64 (slideStep s).freq.fmaxperiod (slideStep s).freq.fperiod = false := by
  cases hlimit : lt64 s.freq.fmaxperiod (mul64 s.freq.fperiod (add64 s.freq.fslide s.freq.fdslide)) with
  | false =>
    rw [slideStep_free rfl hlimit]
    exact hlimit
  | true =>
    rw [slideStep_limited rfl hlimit]
    split <;> exact lt64_irrefl _

theorem minPeriod_le_floorPeriod (x : F64) : le64 minPeriod (floorPeriod x) = true := by
  unfold floorPeriod
  split
  · next h => exact h
  · decide

theorem vibratoStep_modulated {s : State} (h : lt32 0#32 s.vib.amp = true) : vibratoStep s = { s with
    vib := { s.vib with phase := add32 s.vib.phase s.vib.speed }
    freq := { s.freq with period := floorPeriod (mul64 s.freq.fperiod
      (add64 one64 (mul64 (fsin (widen (add32 s.vib.phase s.vib.speed))) (widen s.vib.amp)))) } } :=
  if_pos h

theorem vibratoStep_plain {s : State} (h : lt32 0#32 s.vib.amp = false) :
    vibratoStep s = { s with freq := { s.freq with period := floorPeriod s.freq.fperiod } } :=
  if_neg (Bool.eq_false_iff.mp h)

theorem vibratoStep_period (s : State) : le64 minPeriod (vibratoStep s).freq.period = true := by
  cases h : lt32 0#32 s.vib.amp with
  | false =>
    rw [vibratoStep_plain h]
    exact minPeriod_le_floorPeriod _
  | true =>
    rw [vibratoStep_modulated h]
    exact minPeriod_le_floorPeriod _

/-- What is not a NaN and not below is at least. -/
theorem le32_of_not_lt32 {x y : F32} (hx : isNaN32 x = false) (hy : isNaN32 y = false) (h : ¬ lt32 y x = true) :
    le32 x y = true := by
  rw [lt32_iff] at h
  rw [SystemCommands.le32_iff]
  exact ⟨hx, hy, not_lt.mp fun hlt => h ⟨hy, hx, hlt⟩⟩

/-- A clamped value is a NaN or between the ends of the clamp. -/
theorem clamp32_between {low high : F32} (h : le32 low high = true) (x : F32) :
    isNaN32 (clamp32 low high x) = true ∨
      (le32 low (clamp32 low high x) = true ∧ le32 (clamp32 low high x) high = true) := by
  obtain ⟨hlow, hhigh, hle⟩ := (SystemCommands.le32_iff low high).mp h
  have horder : lt32 high low = false :=
    Bool.eq_false_iff.mpr fun hlt => ((lt32_iff _ _).mp hlt).2.2.not_ge hle
  rw [clamp32_eq horder]
  split_ifs with hbelow habove
  · exact .inr ⟨le32_of_not_lt32 hlow hlow (by simp [lt32_irrefl]), h⟩
  · exact .inr ⟨h, le32_of_not_lt32 hhigh hhigh (by simp [lt32_irrefl])⟩
  · cases hnan : isNaN32 x with
    | true => exact .inl rfl
    | false => exact .inr ⟨le32_of_not_lt32 hlow hnan hbelow, le32_of_not_lt32 hnan hhigh habove⟩

/-- Settles O46: each step by its tests, and the bounds of the three clamps. -/
theorem controlStepsClamp : Obligations.ControlStepsClamp := by
  rintro s _ fperiod _ _ _ _ rfl hperiod rfl rfl rfl rfl
  have hduty : lt32 half32 0#32 = false := by decide
  have hpass : lt32 tenth32 highPassFloor32 = false := by decide
  refine ⟨slideStep_free hperiod, fun hlimit hp => ?_, fun hlimit hp => ?_, vibratoStep_modulated, vibratoStep_plain,
    ?_, slideStep_fperiod s, vibratoStep_period s, clamp32_between (by decide) _,
    clamp32_between (by decide) _⟩
  · rw [slideStep_limited hperiod hlimit, hp]
    rfl
  · rw [slideStep_limited hperiod hlimit, hp]
    rfl
  · rw [rampStep, clamp32_eq hduty, clamp32_eq hpass]
    rfl

/-! ## The stage advance (R167) -/

/-- The duration of a stage; Stopped has none. -/
def duration (e : EnvRegs) : EnvStage → Nat
  | .attack => e.len0.toNat
  | .sustain => e.len1.toNat
  | .decay => e.len2.toNat
  | .stopped => 0

/-- The next stage with a nonzero duration, else Stopped. -/
def nextStage (e : EnvRegs) : EnvStage → EnvStage
  | .attack => if e.len1 ≠ 0#32 then .sustain else if e.len2 ≠ 0#32 then .decay else .stopped
  | .sustain => if e.len2 ≠ 0#32 then .decay else .stopped
  | .decay => .stopped
  | .stopped => .stopped

/-- The stage that one pass of the loop goes on to. -/
def followingStage : EnvStage → EnvStage
  | .attack => .sustain
  | .sustain => .decay
  | .decay => .stopped
  | .stopped => .stopped

/-- `e` at the beginning of a stage. -/
def entered (stage : EnvStage) (e : EnvRegs) : EnvRegs := { e with stage := stage, time := 0#32 }

/-- The stage is not yet over: the loop of R167 leaves it. -/
def Settled (e : EnvRegs) : Prop := e.stage = .stopped ∨ e.time.toNat < duration e e.stage

theorem Settled.time_lt {e : EnvRegs} {stage : EnvStage} (h : Settled e) (hs : e.stage = stage)
    (hne : stage ≠ .stopped) : e.time.toNat < duration e stage := by
  subst hs
  exact h.resolve_left hne

theorem settled_stopped (e : EnvRegs) : Settled (entered .stopped e) := .inl rfl

theorem settled_entered {stage : EnvStage} {e : EnvRegs} (h : duration e stage ≠ 0) : Settled (entered stage e) :=
  .inr (Nat.pos_of_ne_zero h)

theorem toNat_ne_zero {x : Word32} (h : x ≠ 0#32) : x.toNat ≠ 0 := fun h0 => h (BitVec.eq_of_toNat_eq h0)

theorem settled_decayOrStopped (e : EnvRegs) : Settled (entered (nextStage e .sustain) e) := by
  rw [nextStage]
  split
  · next h => exact settled_entered (toNat_ne_zero h)
  · exact settled_stopped e

theorem settled_nextStage (e : EnvRegs) (stage : EnvStage) : Settled (entered (nextStage e stage) e) := by
  cases stage with
  | attack =>
    by_cases h : e.len1 = 0#32
    · rw [nextStage, if_neg (not_not.mpr h)]
      exact settled_decayOrStopped e
    · rw [nextStage, if_pos h]
      exact settled_entered (toNat_ne_zero h)
  | sustain => exact settled_decayOrStopped e
  | decay => exact settled_stopped e
  | stopped => exact settled_stopped e

theorem advanceStage_settled {e : EnvRegs} (h : Settled e) : advanceStage e = e := by
  obtain ⟨stage, time, len0, len1, len2, vol⟩ := e
  cases stage with
  | stopped => rfl
  | attack => exact if_neg fun hle => (h.time_lt rfl nofun).not_ge (BitVec.le_def.mp hle)
  | sustain => exact if_neg fun hle => (h.time_lt rfl nofun).not_ge (BitVec.le_def.mp hle)
  | decay => exact if_neg fun hle => (h.time_lt rfl nofun).not_ge (BitVec.le_def.mp hle)

theorem advanceStage_over {e : EnvRegs} {stage : EnvStage} (hs : e.stage = stage) (hne : stage ≠ .stopped)
    (h : duration e stage ≤ e.time.toNat) : advanceStage e = entered (followingStage stage) e := by
  rw [advanceStage, hs]
  cases stage with
  | stopped => exact absurd rfl hne
  | attack => exact if_pos (BitVec.le_def.mpr h)
  | sustain => exact if_pos (BitVec.le_def.mpr h)
  | decay => exact if_pos (BitVec.le_def.mpr h)

/-- A pass over a stage just entered goes on where the stage has no duration. -/
theorem advanceStage_entered {stage : EnvStage} (hne : stage ≠ .stopped) (e : EnvRegs) :
    advanceStage (entered stage e) = entered (if duration e stage = 0 then followingStage stage else stage) e := by
  split
  · next h => exact advanceStage_over rfl hne h.le
  · next h => exact advanceStage_settled (settled_entered h)

theorem advanceStages_settled {e : EnvRegs} (h : Settled e) : advanceStages e = e := by
  rw [advanceStages, advanceStage_settled h, advanceStage_settled h, advanceStage_settled h]

theorem toNat_eq_zero_iff (x : Word32) : x.toNat = 0 ↔ x = 0#32 := BitVec.toNat_inj (y := 0#32)

/-- From the stage after one that is over, the two passes left reach a stage with a duration. -/
theorem advanceStage_twice (e : EnvRegs) (stage : EnvStage) :
    advanceStage (advanceStage (entered (followingStage stage) e)) = entered (nextStage e stage) e := by
  have hdecay : advanceStage (entered .decay e) = entered (nextStage e .sustain) e := by
    rw [advanceStage_entered (stage := .decay) nofun]
    simp [duration, nextStage, followingStage, toNat_eq_zero_iff]
  cases stage with
  | stopped => rfl
  | decay => rfl
  | sustain =>
    rw [followingStage, hdecay]
    exact advanceStage_settled (settled_nextStage e .sustain)
  | attack =>
    have hsettled := settled_nextStage e .attack
    rw [followingStage, advanceStage_entered (stage := .sustain) nofun]
    by_cases h : e.len1 = 0#32
    · have hzero : duration e .sustain = 0 := (toNat_eq_zero_iff _).mpr h
      rw [if_pos hzero, nextStage, if_neg (not_not.mpr h)]
      exact hdecay
    · have hpos : duration e .sustain ≠ 0 := toNat_ne_zero h
      rw [nextStage, if_pos h] at hsettled
      rw [if_neg hpos, nextStage, if_pos h]
      exact advanceStage_settled hsettled

theorem advanceStages_over {e : EnvRegs} {stage : EnvStage} (hs : e.stage = stage) (hne : stage ≠ .stopped)
    (h : duration e stage ≤ e.time.toNat) : advanceStages e = entered (nextStage e stage) e := by
  rw [advanceStages, advanceStage_over hs hne h, advanceStage_twice]

/-- What the loop of R167 leaves: the stage it found, not yet over, or the next one, at its beginning. -/
theorem advanceStages_cases (e : EnvRegs) :
    (Settled e ∧ advanceStages e = e) ∨
    (e.stage ≠ .stopped ∧ duration e e.stage ≤ e.time.toNat ∧
      advanceStages e = entered (nextStage e e.stage) e) := by
  by_cases h : Settled e
  · exact .inl ⟨h, advanceStages_settled h⟩
  · obtain ⟨hstage, htime⟩ := not_or.mp h
    exact .inr ⟨hstage, not_lt.mp htime, advanceStages_over rfl hstage (not_lt.mp htime)⟩

theorem settled_advanceStages (e : EnvRegs) : Settled (advanceStages e) := by
  obtain ⟨h, heq⟩ | ⟨-, -, heq⟩ := advanceStages_cases e <;> rw [heq]
  · exact h
  · exact settled_nextStage e e.stage

/-- The loop keeps the durations and the volume. -/
theorem advanceStages_state (e : EnvRegs) :
    advanceStages e = { e with stage := (advanceStages e).stage, time := (advanceStages e).time } := by
  obtain ⟨-, heq⟩ | ⟨-, -, heq⟩ := advanceStages_cases e <;> rw [heq]
  rfl

theorem advanceStages_time {e : EnvRegs} (hne : (advanceStages e).stage ≠ e.stage) : (advanceStages e).time = 0#32 := by
  obtain ⟨-, heq⟩ | ⟨-, -, heq⟩ := advanceStages_cases e
  · exact absurd (by rw [heq]) hne
  · rw [heq, entered]

/-- Settles O47: a stage not yet over, a stage that is over, and what both leave. -/
theorem stageAdvanceIsComplete : Obligations.StageAdvanceIsComplete := by
  intro e
  have hstate := advanceStages_state e
  have hsettled := settled_advanceStages e
  have hkept {stage : EnvStage} (hs : e.stage = stage) (ht : e.time.toNat < duration e stage) : advanceStages e = e :=
    advanceStages_settled (.inr (hs ▸ ht))
  exact ⟨fun hs => hkept hs, fun hs => hkept hs, fun hs => hkept hs, fun hs => advanceStages_settled (.inl hs),
    fun hs => advanceStages_over hs nofun, fun hs => advanceStages_over hs nofun,
    fun hs => advanceStages_over hs nofun, advanceStage_settled hsettled, by rw [hstate], by rw [hstate],
    by rw [hstate], by rw [hstate], fun hs => hsettled.time_lt hs nofun, fun hs => hsettled.time_lt hs nofun,
    fun hs => hsettled.time_lt hs nofun, advanceStages_time⟩

end Sys2Proof.ControlSteps
end

section
/-!
The iteration (44_synth_control.md R160). One found in a run has four outcomes: it is ended by the cap, by the frequency
limit or by the envelope, or it appends a sample. What every iteration keeps, and what one that ends the run keeps
besides, are records of registers: a step keeps them where its record is that of the state it found.
-/

namespace Sys2Proof.Iteration

open Sys2Proof Sys2Proof.Machine Sys2Proof.Laws Sys2Proof.ControlSteps Sys2Proof.AccumulatorCommands

/-! ## The outcomes -/

/-- `s` after steps 1 and 2. -/
def triggered (s : State) : State := arpeggioStep (repeatStep s)

/-- `s` after steps 1 to 5. -/
def ramped (s : State) : State := rampStep (vibratoStep (slideStep (triggered s)))

/-- `s` after steps 1 to 5 and the stage advance of step 6. -/
def staged (s : State) : State := { ramped s with env := advanceStages (triggered s).env }

/-- `s` after steps 1 to 7. -/
def prepared (s : State) : State := phaserOffsetStep (volumeStep (staged s))

theorem triggered_status (s : State) : (triggered s).status = s.status := by
  rw [triggered, arpeggioStep_status, repeatStep_state]

theorem triggered_params (s : State) : (triggered s).params = s.params := by
  rw [triggered, arpeggioStep_params, repeatStep_state]

theorem triggered_p (s : State) (i : Fin 28) : (triggered s).p i = s.p i := by
  rw [State.p, triggered_params, State.p]

theorem ramped_env (s : State) : (ramped s).env = (triggered s).env := by
  rw [ramped, rampStep_env, vibratoStep_state, slideStep_state]

theorem ramped_status (s : State) : (ramped s).status = (slideStep (triggered s)).status := by
  rw [ramped, rampStep_status, vibratoStep_state]

/-- Step 3 ends the run: the slid period is above its limit, and `P[8] > 0` (R164). -/
def Limited (r : State) : Prop :=
  lt64 r.freq.fmaxperiod (mul64 r.freq.fperiod (add64 r.freq.fslide r.freq.fdslide)) = true ∧ lt32 0#32 (r.p 8) = true

theorem slideStep_of_limited {r : State} (h : Limited r) :
    slideStep r = endRun .frequencyLimit (slid r.freq.fmaxperiod r) := by
  rw [slideStep_limited rfl h.1, if_pos h.2]

theorem slideStep_status_of_not_limited {r : State} (h : ¬ Limited r) : (slideStep r).status = r.status := by
  cases hlimit : lt64 r.freq.fmaxperiod (mul64 r.freq.fperiod (add64 r.freq.fslide r.freq.fdslide)) with
  | false =>
    rw [slideStep_free rfl hlimit]
    rfl
  | true =>
    rw [slideStep_limited rfl hlimit, if_neg fun hp => h ⟨hlimit, hp⟩]
    rfl

theorem stageStep_stopped {s : State} (h : (advanceStages s.env).stage = .stopped) :
    stageStep s = endRun .envelope { s with env := advanceStages s.env } := if_pos h

theorem stageStep_goes_on {s : State} (h : (advanceStages s.env).stage ≠ .stopped) :
    stageStep s = { s with env := advanceStages s.env } := if_neg h

section
variable {s : State}

theorem iteration_full (h : 1048576 ≤ s.acc.length) : iteration s = endRun .sampleCap s :=
  if_pos (sampleCap_eq.trans_le h)

theorem slideStep_status_of_free (hfree : ¬ Limited (triggered s)) : (slideStep (triggered s)).status = s.status := by
  rw [slideStep_status_of_not_limited hfree, triggered_status]

theorem staged_status (hfree : ¬ Limited (triggered s)) : (staged s).status = s.status := by
  rw [staged, ramped_status, slideStep_status_of_free hfree]

variable (hroom : ¬ 1048576 ≤ s.acc.length)
include hroom

theorem iteration_room : iteration s = unlessEnded (fun t => unlessEnded
    (fun u => sampleStep (phaserOffsetStep (volumeStep u))) (stageStep (rampStep (vibratoStep t))))
    (slideStep (triggered s)) :=
  if_neg (sampleCap_eq ▸ hroom)

theorem iteration_limited (h : Limited (triggered s)) :
    iteration s = endRun .frequencyLimit (slid (triggered s).freq.fmaxperiod (triggered s)) := by
  rw [iteration_room hroom, slideStep_of_limited h]
  exact unlessEnded_ended _ rfl

variable (hfree : ¬ Limited (triggered s)) (hp : s.status.playing = true)
include hp hfree

theorem iteration_free : iteration s =
    unlessEnded (fun u => sampleStep (phaserOffsetStep (volumeStep u))) (stageStep (ramped s)) := by
  rw [iteration_room hroom, unlessEnded_playing _ (by rw [slideStep_status_of_free hfree, hp])]
  rfl

theorem iteration_stopped (h : (advanceStages (triggered s).env).stage = .stopped) :
    iteration s = endRun .envelope (staged s) := by
  rw [← ramped_env] at h
  rw [iteration_free hroom hfree hp, stageStep_stopped h, ramped_env]
  exact unlessEnded_ended _ rfl

theorem iteration_appends (h : (advanceStages (triggered s).env).stage ≠ .stopped) :
    iteration s = sampleStep (prepared s) := by
  have hplaying : (staged s).status.playing = true := by rw [staged_status hfree, hp]
  rw [← ramped_env] at h
  rw [iteration_free hroom hfree hp, stageStep_goes_on h, ramped_env]
  exact unlessEnded_playing _ hplaying

end

/-! ## What an iteration keeps -/

/-- The registers that no iteration writes. -/
structure Constants where
  params : Vector Word32 28
  speed : F32
  amp : F32
  repLimit : Word32
  fdphase : F32
  fltwD : F32
  fltdmp : F32
  flthpD : F32
  seeded : Bool
  fatal : Bool
  errflags : BitVec 6

def constants (s : State) : Constants where
  params := s.params
  speed := s.vib.speed
  amp := s.vib.amp
  repLimit := s.rep.limit
  fdphase := s.pha.fdphase
  fltwD := s.flt.fltwD
  fltdmp := s.flt.fltdmp
  flthpD := s.flt.flthpD
  seeded := s.status.seeded
  fatal := s.status.fatal
  errflags := s.status.errflags

theorem p_of_constants {s t : State} (h : constants t = constants s) (i : Fin 28) : t.p i = s.p i :=
  congrArg (fun c : Constants => c.params[i]) h

/-- The registers and memories that steps 1 to 6 leave to steps 7 to 9. -/
structure DatapathState where
  acc : List F32
  phase : F64
  rng : Word64
  pink : PinkRegs
  lfsr : BitVec 15
  pha : PhaserRegs
  fltp : F32
  fltdp : F32
  fltw : F32
  fltphp : F32
  phaser : Memory
  nwhite : Memory
  npink : Memory

def datapathState (s : State) : DatapathState where
  acc := s.acc
  phase := s.phase
  rng := s.rng
  pink := s.pink
  lfsr := s.lfsr
  pha := s.pha
  fltp := s.flt.fltp
  fltdp := s.flt.fltdp
  fltw := s.flt.fltw
  fltphp := s.flt.fltphp
  phaser := s.phaser
  nwhite := s.nwhite
  npink := s.npink

section
variable {s t : State} (h : datapathState t = datapathState s)
include h

theorem acc_of_datapathState : t.acc = s.acc := congrArg DatapathState.acc h
theorem pha_of_datapathState : t.pha = s.pha := congrArg DatapathState.pha h
theorem phaser_of_datapathState : t.phaser = s.phaser := congrArg DatapathState.phaser h

theorem memRead_of_datapathState (space : Space) (index : Nat) :
    memRead space index t = memRead space index s := by
  cases space with
  | phaser => exact congrArg (fun d : DatapathState => Memory.read d.phaser index) h
  | nwhite => exact congrArg (fun d : DatapathState => Memory.read d.nwhite index) h
  | npink => exact congrArg (fun d : DatapathState => Memory.read d.npink index) h

end

/-- `t` has the constants and the datapath state of `s`. -/
def ControlOnly (s t : State) : Prop := constants t = constants s ∧ datapathState t = datapathState s

theorem ControlOnly.trans {s t u : State} (h : ControlOnly s t) (h' : ControlOnly t u) : ControlOnly s u :=
  ⟨h'.1.trans h.1, h'.2.trans h.2⟩

theorem repeatStep_controlOnly (s : State) : ControlOnly s (repeatStep s) := by
  rw [repeatStep_state]
  exact ⟨rfl, rfl⟩

theorem triggered_controlOnly (s : State) : ControlOnly s (triggered s) :=
  (repeatStep_controlOnly s).trans ⟨rfl, rfl⟩

theorem endRun_controlOnly (c : StopCause) (s : State) : ControlOnly s (endRun c s) := ⟨rfl, rfl⟩

theorem slideStep_controlOnly (s : State) : ControlOnly s (slideStep s) := by
  rw [slideStep_state]
  rcases slideStep_status s with h | h <;> rw [h]
  · exact ⟨rfl, rfl⟩
  · exact ⟨rfl, rfl⟩

theorem vibratoStep_controlOnly (s : State) : ControlOnly s (vibratoStep s) := by
  rw [vibratoStep_state]
  exact ⟨rfl, rfl⟩

theorem rampStep_controlOnly (s : State) : ControlOnly s (rampStep s) := ⟨rfl, rfl⟩

theorem setEnv_controlOnly (env : EnvRegs) (s : State) : ControlOnly s { s with env := env } := ⟨rfl, rfl⟩

theorem staged_controlOnly (s : State) : ControlOnly s (staged s) :=
  (triggered_controlOnly s).trans <| (slideStep_controlOnly _).trans <| (vibratoStep_controlOnly _).trans <|
    (rampStep_controlOnly _).trans (setEnv_controlOnly _ _)

theorem phaserOffsetStep_constants (s : State) : constants (phaserOffsetStep s) = constants s := rfl

theorem volumeStep_constants (s : State) : constants (volumeStep s) = constants s := rfl

theorem prepared_constants (s : State) : constants (prepared s) = constants s := by
  rw [prepared, phaserOffsetStep_constants, volumeStep_constants, (staged_controlOnly s).1]

end Sys2Proof.Iteration
end

section
/-!
Steps 8 and 9 of the iteration (45_synth_datapath.md R180 to R203): the waveforms, the filters and the output stage as
equations, and what the eight sub-samples of one sample leave alone.
-/

namespace Sys2Proof.SampleMaking

open Sys2Proof Sys2Proof.Machine Sys2Proof.Laws Sys2Proof.ExactFloat Sys2Proof.FloatPatterns Sys2Proof.RoundingBounds
open Sys2Proof.Iteration

/-! ## Waveforms (R184 to R193) -/

theorem noiseIndex_eq (u : State) : noiseIndex u =
    min 31 (truncU64 (div64 (mul64 u.phase 0x4040000000000000#64) u.freq.period)).toNat := by
  rw [noiseIndex, RunStart.nat64_literals.2.1]

/-- Each wave code selects its waveform. -/
theorem waveform_eq (u : State) :
    (u.p 0 = 0#32 → waveform u = waveSquare (phaseFraction u) u.freq.squareDuty) ∧
    (u.p 0 = 1#32 → waveform u = waveSawtooth (phaseFraction u)) ∧
    (u.p 0 = 2#32 → waveform u = waveSine (phaseFraction u)) ∧
    (u.p 0 = 3#32 → waveform u = memRead .nwhite (noiseIndex u) u) ∧
    (u.p 0 = 4#32 → waveform u = waveTriangle (phaseFraction u)) ∧
    (u.p 0 = 5#32 → waveform u = memRead .npink (noiseIndex u) u) ∧
    (u.p 0 = 6#32 → waveform u = waveTangent (phaseFraction u)) ∧
    (u.p 0 = 7#32 → waveform u = waveBreaker (phaseFraction u)) ∧
    (u.p 0 = 8#32 → waveform u = waveOneBit u.lfsr) := by
  refine ⟨?_, ?_, ?_, ?_, ?_, ?_, ?_, ?_, ?_⟩ <;> intro h <;> rw [waveform, h] <;> rfl

/-! ## Filters (R194, R195) -/

theorem tenth_not_negative : lt32 tenth32 0#32 = false := by decide

theorem filters_eq (cutoff x y w d p h : F32) (g : FilterRegs) (hy : y = mul32 g.fltw g.fltwD)
    (hw : w = (if lt32 y 0#32 then 0#32 else if lt32 0x3DCCCCCD#32 y then 0x3DCCCCCD#32 else y))
    (hpass : if eq32 cutoff 0x3F800000#32 then d = 0#32 ∧ p = add32 x d
      else ∃ d', d' = add32 g.fltdp (mul32 (sub32 x g.fltp) w) ∧ d = sub32 d' (mul32 d' g.fltdmp) ∧
        p = add32 g.fltp d)
    (hh : h = add32 g.fltphp (sub32 p g.fltp)) :
    filters cutoff x g = { g with fltw := w, fltdp := d, fltp := p, fltphp := sub32 h (mul32 h g.flthp) } := by
  have hclamp : clamp32 0#32 tenth32 (mul32 g.fltw g.fltwD) = w := by
    rw [clamp32_eq tenth_not_negative, ← hy]
    exact hw.symm
  simp only [filters, lowPass, hclamp]
  split at hpass
  · next hone =>
    obtain ⟨rfl, rfl⟩ := hpass
    subst hh
    rw [one32, if_pos hone]
    rfl
  · next hone =>
    obtain ⟨_, rfl, rfl, rfl⟩ := hpass
    subst hh
    rw [one32, if_neg hone]
    rfl

/-- The filters write the four registers of their state. -/
theorem filters_state (cutoff x : F32) (g : FilterRegs) : filters cutoff x g =
    { g with fltw := (filters cutoff x g).fltw, fltdp := (filters cutoff x g).fltdp,
             fltp := (filters cutoff x g).fltp, fltphp := (filters cutoff x g).fltphp } := by
  simp only [filters, lowPass, highPass]
  split <;> rfl

/-! ## Decimation (R199) -/

theorem nat32_two_pow : ∀ bits : Fin 25, (nat32 (2 ^ bits.val)).toNat = 0x3F800000 + bits.val * 2 ^ 23 := by
  decide

theorem decimate_eq (depth x m : F32) (neg : Bool) (bits : Nat) (hbits : bits ≤ 24) (hneg : neg = true → bits = 0)
    (hdepth : binary32.unpack depth.toNat = .fin neg (bits * 2 ^ 149)) (hm : m.toNat = 0x3F800000 + bits * 2 ^ 23) :
    decimate depth x = if bits = 0 then x else div32 (truncf32 (mul32 x m)) m := by
  have hlt : bits * 2 ^ 149 < 2 ^ 31 * 2 ^ 149 := Nat.mul_lt_mul_of_pos_right (by omega) (Nat.two_pow_pos _)
  have htrunc : (truncU32 depth).toNat = bits := by
    rw [DerivedCounts.truncU32_toNat hdepth (fun h => by rw [hneg h, Nat.zero_mul]) hlt]
    exact Nat.mul_div_cancel _ (Nat.two_pow_pos _)
  have hpower : nat32 (2 ^ bits) = m :=
    BitVec.eq_of_toNat_eq ((nat32_two_pow ⟨bits, by omega⟩).trans hm.symm)
  simp only [decimate, htrunc, hpower]
  by_cases h : bits = 0
  · rw [if_pos h, if_neg (by omega)]
  · rw [if_neg h, if_pos (by omega)]

/-- The integral part of a binary32 value is a binary32 value: a value with fraction bits has few integral ones. -/
theorem holds_integral {k : Nat} (h : Holds binary32 k) :
    Holds binary32 (k / 2 ^ binary32.scale * 2 ^ binary32.scale) := by
  by_cases hlt : k < 2 ^ 24 * 2 ^ binary32.scale
  · exact holds_binary32 149 ((Nat.div_lt_iff_lt_mul (Nat.two_pow_pos _)).mpr hlt) (by decide)
  · have hk : k ≠ 0 := by
      rintro rfl
      exact hlt (Nat.mul_pos (by decide) (Nat.two_pow_pos _))
    have hlog : 24 + binary32.scale ≤ Nat.log2 k := by
      rw [Nat.le_log2 hk, Nat.pow_add]
      exact Nat.le_of_not_lt hlt
    have hscale : binary32.scale ≤ lastBit binary32 k := by
      have hprec : binary32.prec - 1 = 23 := rfl
      rw [lastBit, hprec]
      omega
    rwa [Nat.div_mul_cancel ((Nat.pow_dvd_pow 2 hscale).trans h.exact)]

theorem truncf32_unpack (x : F32) (neg : Bool) (k : Nat) (hx : binary32.unpack x.toNat = .fin neg k) :
    binary32.unpack (truncf32 x).toNat = .fin neg (k / 2 ^ 149 * 2 ^ 149) := by
  obtain ⟨magnitude, hfinite, -, rfl⟩ := unpack_eq_fin (f := binary32) (by decide) (by decide) x.isLt hx
  have hholds := holds_integral (holds_magnitudeValue (f := binary32) (by decide) (by decide) hfinite)
  generalize magnitudeValue binary32 magnitude = k at hx hholds
  have hround := unpack_round_of_holds (f := binary32) (by decide) (by decide) Nat.one_pos hholds neg
  have hpattern : (truncf32 x).toNat = binary32.round neg (k / 2 ^ binary32.scale * 2 ^ binary32.scale) 1 := by
    rw [truncf32, FloatFormat.truncate, hx]
    exact Nat.mod_eq_of_lt (round_lt_two_pow (f := binary32) (by decide) (by decide) _ _ _)
  rw [Nat.mul_one] at hround
  rw [hpattern]
  exact hround

/-! ## Compression (R200) -/

/-- The sign bit of one pattern and the magnitude bits of another. -/
theorem copySign_eq (a x : F32) : copySign a x = x.extractLsb' 31 1 ++ a.extractLsb' 0 31 := by
  have hmagnitude : ∀ i, i < 32 → (0x7FFFFFFF#32).getLsbD i = decide (i < 31) := by decide
  have hsign : ∀ i, i < 32 → (0x80000000#32).getLsbD i = decide (i = 31) := by decide
  apply BitVec.eq_of_getLsbD_eq
  intro i hi
  rw [copySign, abs32, BitVec.getLsbD_or, BitVec.getLsbD_and, BitVec.getLsbD_and, hmagnitude i hi, hsign i hi,
    BitVec.getLsbD_append]
  by_cases hlow : i < 31
  · simp [hlow, hlow.ne]
  · obtain rfl : i = 31 := by omega
    simp

theorem compress_eq (exponent x a : F32) (ha : a = narrow (fpow (widen (abs32 x)) (widen exponent))) :
    compress exponent x = if lt32 0#32 exponent then x.extractLsb' 31 1 ++ a.extractLsb' 0 31 else x := by
  subst ha
  rw [← copySign_eq, compress]

/-! ## What the sub-samples leave alone (R180 to R183, R196) -/

/-- `t` has the noise state of `s` but what the wave type refreshes. -/
structure NoiseKept (s t : State) : Prop where
  nwhite : s.p 0 ≠ 3#32 → t.nwhite = s.nwhite
  npink : s.p 0 ≠ 5#32 → t.npink = s.npink ∧ t.pink = s.pink
  lfsr : s.p 0 ≠ 8#32 → t.lfsr = s.lfsr
  rng : s.p 0 ≠ 3#32 → s.p 0 ≠ 5#32 → t.rng = s.rng

theorem NoiseKept.refl (s : State) : NoiseKept s s :=
  ⟨fun _ => rfl, fun _ => ⟨rfl, rfl⟩, fun _ => rfl, fun _ _ => rfl⟩

theorem noiseKept_of_datapathState {s t : State} (h : datapathState t = datapathState s) : NoiseKept s t :=
  ⟨fun _ => congrArg DatapathState.nwhite h, fun _ => ⟨congrArg DatapathState.npink h, congrArg DatapathState.pink h⟩,
    fun _ => congrArg DatapathState.lfsr h, fun _ _ => congrArg DatapathState.rng h⟩

theorem NoiseKept.trans {s t u : State} (h : NoiseKept s t) (h' : NoiseKept t u) (hwave : t.p 0 = s.p 0) :
    NoiseKept s u := by
  obtain ⟨hnwhite, hnpink, hlfsr, hrng⟩ := h'
  rw [hwave] at hnwhite hnpink hlfsr hrng
  exact ⟨fun hw => (hnwhite hw).trans (h.nwhite hw),
    fun hw => ⟨(hnpink hw).1.trans (h.npink hw).1, (hnpink hw).2.trans (h.npink hw).2⟩,
    fun hw => (hlfsr hw).trans (h.lfsr hw), fun hw hw' => (hrng hw hw').trans (h.rng hw hw')⟩

theorem NoiseKept.present {s t : State} (h : NoiseKept s t) (r : Response) : NoiseKept s (t.present r) :=
  ⟨h.nwhite, h.npink, h.lfsr, h.rng⟩

/-- What `n` sub-samples make of `s`: the write index gone on by `n`, `n` ring words and the noise state of the wave type
written, and no constant. -/
structure SubSampled (n : Nat) (s t : State) : Prop where
  constants : Iteration.constants t = Iteration.constants s
  pha : t.pha = { s.pha with ipp := s.pha.ipp + BitVec.ofNat 10 n }
  ring : ∀ index, (∀ j, j < n → index ≠ (s.pha.ipp.toNat + j) % 1024) →
    memRead .phaser index t = memRead .phaser index s
  noise : NoiseKept s t

theorem SubSampled.wave {n : Nat} {s t : State} (h : SubSampled n s t) : t.p 0 = s.p 0 := p_of_constants h.constants 0

theorem subSampled_zero (s : State) : SubSampled 0 s s where
  constants := rfl
  pha := by rw [BitVec.add_zero]
  ring := fun _ _ => rfl
  noise := .refl s

theorem SubSampled.trans {m n : Nat} {s t u : State} (h : SubSampled m s t) (h' : SubSampled n t u) :
    SubSampled (m + n) s u where
  constants := h'.constants.trans h.constants
  pha := by rw [h'.pha, h.pha, BitVec.add_assoc, ← BitVec.ofNat_add]
  ring := fun index hne => by
    have hipp : t.pha.ipp.toNat = (s.pha.ipp.toNat + m) % 1024 := by
      rw [h.pha]
      simp
    rw [h'.ring index fun j hj => ?_, h.ring index fun j hj => hne j (by omega)]
    have hlater := hne (m + j) (by omega)
    rw [hipp]
    omega
  noise := h.noise.trans h'.noise h.wave

theorem advancePhase_noiseKept (s : State) : NoiseKept s (advancePhase s) := by
  simp only [advancePhase]
  split
  · obtain ⟨hnwhite, hnpink, hlfsr, hrng⟩ :=
      wrapRefresh_kept { s with phase := fmod64 (add64 s.phase one64) s.freq.period }
    exact ⟨hnwhite, hnpink, hlfsr, hrng⟩
  · exact ⟨fun _ => rfl, fun _ => ⟨rfl, rfl⟩, fun _ => rfl, fun _ _ => rfl⟩

/-- The filtered state of a sub-sample, before the phaser. -/
def filtered (s : State) : State :=
  { advancePhase s with flt := filters ((advancePhase s).p 16) (waveform (advancePhase s)) (advancePhase s).flt }

theorem filtered_constants (s : State) : constants (filtered s) = constants s := by
  have hphase := advancePhase_state s
  rw [filtered, filters_state]
  generalize advancePhase s = t at hphase ⊢
  generalize filters (t.p 16) (waveform t) t.flt = flt
  rw [hphase]
  rfl

theorem filtered_pha (s : State) : (filtered s).pha = s.pha := by
  rw [filtered, advancePhase_state]

theorem filtered_phaser (s : State) : (filtered s).phaser = s.phaser := by
  rw [filtered, advancePhase_state]

theorem filtered_noiseKept (s : State) : NoiseKept s (filtered s) :=
  have h := advancePhase_noiseKept s
  ⟨h.nwhite, h.npink, h.lfsr, h.rng⟩

/-- `Phaser()` writes one ring word and moves the write index on by one. -/
theorem phaserTapSample_subSampled (x : F32) (s : State) : SubSampled 1 s (phaserTapSample x s).2 := by
  rw [phaserTapSample_state]
  refine ⟨rfl, rfl, fun index hne => ?_, ⟨fun _ => rfl, fun _ => ⟨rfl, rfl⟩, fun _ => rfl, fun _ _ => rfl⟩⟩
  have hwrite : index ≠ s.pha.ipp.toNat := by
    have hfirst := hne 0 Nat.one_pos
    omega
  exact read_write_other _ _ hwrite

theorem filtered_subSampled (s : State) : SubSampled 0 s (filtered s) where
  constants := filtered_constants s
  pha := by rw [filtered_pha, BitVec.add_zero]
  ring := fun index _ => congrArg (Memory.read · index) (filtered_phaser s)
  noise := filtered_noiseKept s

theorem subSample_subSampled (r : F32 × State) : SubSampled 1 r.2 (subSample r).2 :=
  (filtered_subSampled r.2).trans (phaserTapSample_subSampled _ _)

theorem subSampleLoop_subSampled (n : Nat) (r : F32 × State) : SubSampled n r.2 (subSampleLoop n r).2 := by
  induction n generalizing r with
  | zero => exact subSampled_zero _
  | succ n ih =>
    rw [subSampleLoop, Nat.add_comm]
    exact (subSample_subSampled r).trans (ih _)

/-- A sample has eight sub-samples. -/
theorem subSamples_subSampled (s : State) : SubSampled 8 s (subSamples s).2 := subSampleLoop_subSampled 8 (0#32, s)

theorem accAppend_constants (v : F32) (s : State) : constants (accAppend v s) = constants s := rfl

theorem sampleStep_constants (s : State) : constants (sampleStep s) = constants s := by
  rw [sampleStep, accAppend_constants, (subSamples_subSampled s).constants]

end Sys2Proof.SampleMaking
end

section
/-!
SYNTH_STEP (44_synth_control.md R160 to R171): its answer and its state for each outcome of the iteration.
-/

namespace Sys2Proof.SynthStep

open Sys2Proof Sys2Proof.Machine Sys2Proof.Laws Sys2Proof.ControlSteps Sys2Proof.Iteration Sys2Proof.SampleMaking

/-! ## The command and its response (R171) -/

/-- `s` after a SYNTH_STEP that finds a run in progress. -/
def stepped (s : State) : State :=
  (iteration s).present { err := 0#4, data := stepResponse s.acc.length (iteration s) }

section
variable {s : State} (hf : s.status.fatal = false)
include hf

theorem exec_synthStep_idle (hp : s.status.playing = false) : exec .synthStep s = respond 0#64 s := by
  rw [exec, execSynthStep, fatalGate_pass _ hf, if_neg (Bool.eq_false_iff.mp hp)]

theorem exec_synthStep_playing (hp : s.status.playing = true) : exec .synthStep s = .next (stepped s) := by
  rw [exec, execSynthStep, fatalGate_pass _ hf, if_pos hp]
  rfl

end

theorem stepResponse_kept {n : Nat} {t : State} (h : t.acc.length = n) : stepResponse n t = 0#64 :=
  dif_neg (by omega)

theorem stepResponse_appended {samples : List F32} {v : F32} {t : State} (h : t.acc = samples ++ [v]) :
    stepResponse samples.length t = 1#32 ++ v := by
  have hlength : t.acc.length = samples.length + 1 := by rw [h, List.length_append, List.length_singleton]
  rw [stepResponse, dif_pos hlength]
  simp only [h, List.getElem_concat_length]

/-- An iteration that ends the run leaves the state it ended in, and the response of no sample. -/
theorem stepped_of_ended {s t : State} {c : StopCause} (h : iteration s = endRun c t) (hstatus : t.status = s.status)
    (hacc : t.acc = s.acc) : stepped s = State.present
      { t with status := { s.status with playing := false, stopCause := c } } { err := 0#4, data := 0#64 } := by
  have hlength : (endRun c t).acc.length = s.acc.length := congrArg List.length hacc
  rw [stepped, h, stepResponse_kept hlength, endRun, hstatus]

/-- Settles O48: at the cap the iteration only ends the run. -/
theorem sampleCapEndsTheRun : Obligations.SampleCapEndsTheRun := by
  intro s hf hp hfull
  rw [exec_synthStep_playing hf hp, stepped_of_ended (iteration_full hfull.ge) rfl rfl]

/-! ## Every iteration -/

/-- The outcomes of an iteration found in a run, in the order of R160. -/
theorem iteration_cases {s : State} (hp : s.status.playing = true) :
    (1048576 ≤ s.acc.length ∧ iteration s = endRun .sampleCap s) ∨
    (¬ 1048576 ≤ s.acc.length ∧ Limited (triggered s) ∧
      iteration s = endRun .frequencyLimit (slid (triggered s).freq.fmaxperiod (triggered s))) ∨
    (¬ 1048576 ≤ s.acc.length ∧ ¬ Limited (triggered s) ∧ (advanceStages (triggered s).env).stage = .stopped ∧
      iteration s = endRun .envelope (staged s)) ∨
    (¬ 1048576 ≤ s.acc.length ∧ ¬ Limited (triggered s) ∧ (advanceStages (triggered s).env).stage ≠ .stopped ∧
      iteration s = sampleStep (prepared s)) := by
  by_cases hfull : 1048576 ≤ s.acc.length
  · exact .inl ⟨hfull, iteration_full hfull⟩
  · by_cases hlimited : Limited (triggered s)
    · exact .inr (.inl ⟨hfull, hlimited, iteration_limited hfull hlimited⟩)
    · by_cases hstage : (advanceStages (triggered s).env).stage = .stopped
      · exact .inr (.inr (.inl ⟨hfull, hlimited, hstage, iteration_stopped hfull hlimited hp hstage⟩))
      · exact .inr (.inr (.inr ⟨hfull, hlimited, hstage, iteration_appends hfull hlimited hp hstage⟩))

theorem slid_controlOnly (fperiod : F64) (s : State) : ControlOnly s (slid fperiod s) := ⟨rfl, rfl⟩

theorem prepared_status {s : State} (hfree : ¬ Limited (triggered s)) : (prepared s).status = s.status := by
  rw [prepared, phaserOffsetStep_status, volumeStep_status, staged_status hfree]

theorem prepared_acc (s : State) : (prepared s).acc = s.acc := by
  rw [prepared, phaserOffsetStep_acc, volumeStep_acc]
  exact acc_of_datapathState (staged_controlOnly s).2

theorem subSamples_iterate (t : State) : subSamples t = subSample^[8] (0#32, t) := subSampleLoop_iterate 8 (0#32, t)

/-- The sample that an iteration appends. -/
def appendedSample (s : State) : F32 := outputSample (subSamples (prepared s)).1 (subSamples (prepared s)).2

/-- An iteration found in a run ends it and leaves the datapath alone, or appends one sample and goes on. -/
theorem iteration_ends_or_appends {s : State} (hp : s.status.playing = true) :
    ((iteration s).status.playing = false ∧ ControlOnly s (iteration s)) ∨
    (s.acc.length < 1048576 ∧ constants (iteration s) = constants s ∧ (iteration s).status = s.status ∧
      (iteration s).acc = s.acc ++ [appendedSample s]) := by
  obtain ⟨-, h⟩ | ⟨-, -, h⟩ | ⟨-, -, -, h⟩ | ⟨hroom, hfree, -, h⟩ := iteration_cases hp <;> rw [h]
  · exact .inl ⟨rfl, endRun_controlOnly _ _⟩
  · exact .inl ⟨rfl, (triggered_controlOnly s).trans <| (slid_controlOnly _ _).trans (endRun_controlOnly _ _)⟩
  · exact .inl ⟨rfl, (staged_controlOnly s).trans (endRun_controlOnly _ _)⟩
  · refine .inr ⟨not_le.mp hroom, ?_, ?_, ?_⟩
    · rw [sampleStep_constants, prepared_constants]
    · rw [sampleStep_status, prepared_status hfree]
    · rw [sampleStep_acc, prepared_acc, appendedSample]

theorem iteration_constants {s : State} (hp : s.status.playing = true) : constants (iteration s) = constants s := by
  obtain ⟨-, h, -⟩ | ⟨-, h, -⟩ := iteration_ends_or_appends hp <;> exact h

/-! ## The sample appended (R168 to R170) -/

/-- Before Stopped, step 6 gives the volume of the stage and moves its time on (R168). -/
theorem envelopeVolume_eq (punch : F32) {e : EnvRegs} (h : e.stage ≠ .stopped) :
    (e.stage = .attack ∧ (envelopeVolume punch e).vol = div32 (nat32 e.time.toNat) (nat32 e.len0.toNat) ∨
      e.stage = .sustain ∧ (envelopeVolume punch e).vol = add32 one32 (mul32 (mul32 (sub32 one32
        (div32 (nat32 e.time.toNat) (nat32 e.len1.toNat))) two32) punch) ∨
      e.stage = .decay ∧ (envelopeVolume punch e).vol = sub32 one32 (div32 (nat32 e.time.toNat) (nat32 e.len2.toNat))) ∧
    envelopeVolume punch e = { e with vol := (envelopeVolume punch e).vol, time := e.time + 1#32 } := by
  unfold envelopeVolume
  cases hs : e.stage with
  | attack => exact ⟨.inl ⟨rfl, rfl⟩, rfl⟩
  | sustain => exact ⟨.inr (.inl ⟨rfl, rfl⟩), rfl⟩
  | decay => exact ⟨.inr (.inr ⟨rfl, rfl⟩), rfl⟩
  | stopped => exact absurd hs h

section
variable (s : State)

theorem staged_p (i : Fin 28) : (staged s).p i = s.p i := p_of_constants (staged_controlOnly s).1 i

theorem prepared_env : (prepared s).env = envelopeVolume (s.p 4) (advanceStages (triggered s).env) := by
  rw [prepared, phaserOffsetStep_env, volumeStep_env, staged_p, staged]

theorem prepared_pha : (prepared s).pha = { s.pha with
    fphase := add32 s.pha.fphase s.pha.fdphase, iphase := phaserTap (add32 s.pha.fphase s.pha.fdphase) } := by
  rw [prepared, phaserOffsetStep_pha, volumeStep_pha, pha_of_datapathState (staged_controlOnly s).2]

/-- Steps 6 and 7 write no memory and no noise state. -/
theorem offsetVolume_noiseKept (t : State) : NoiseKept t (phaserOffsetStep (volumeStep t)) :=
  ⟨fun _ => rfl, fun _ => ⟨rfl, rfl⟩, fun _ => rfl, fun _ _ => rfl⟩

theorem prepared_noiseKept : NoiseKept s (prepared s) :=
  (noiseKept_of_datapathState (staged_controlOnly s).2).trans (offsetVolume_noiseKept _) (staged_p s 0)

theorem prepared_phaser : (prepared s).phaser = s.phaser := by
  rw [prepared, phaserOffsetStep_phaser, volumeStep_phaser]
  exact phaser_of_datapathState (staged_controlOnly s).2

theorem prepared_p (i : Fin 28) : (prepared s).p i = s.p i := p_of_constants (prepared_constants s) i

/-! ### The state after the sample -/

/-- Eight sub-samples move the write index on by eight and write no other register of the phaser. -/
theorem sampleStep_pha (t : State) : (sampleStep t).pha = { t.pha with ipp := t.pha.ipp + 8#10 } := by
  rw [sampleStep, accAppend_pha, (subSamples_subSampled t).pha]

theorem sampleStep_env (t : State) : (sampleStep t).env = t.env := by
  rw [sampleStep, accAppend_env, subSamples_state]

theorem accAppend_noiseKept (v : F32) (t : State) : NoiseKept t (accAppend v t) :=
  ⟨fun _ => rfl, fun _ => ⟨rfl, rfl⟩, fun _ => rfl, fun _ _ => rfl⟩

theorem sampleStep_noiseKept : NoiseKept s (sampleStep (prepared s)) := by
  have h := subSamples_subSampled (prepared s)
  rw [sampleStep]
  exact ((prepared_noiseKept s).trans h.noise (prepared_p s 0)).trans (accAppend_noiseKept _ _)
    (h.wave.trans (prepared_p s 0))

theorem memRead_phaser (index : Nat) (t : State) : memRead .phaser index t = Memory.read t.phaser index := rfl

theorem sampleStep_ring (index : Nat) (hne : ∀ j, j < 8 → index ≠ (s.pha.ipp.toNat + j) % 1024) :
    Memory.read (sampleStep (prepared s)).phaser index = Memory.read s.phaser index := by
  have hipp : (prepared s).pha.ipp = s.pha.ipp := by rw [prepared_pha]
  have hring := (subSamples_subSampled (prepared s)).ring index (hipp ▸ hne)
  rw [sampleStep, accAppend_phaser, ← prepared_phaser s]
  exact hring

theorem appendedSample_eq : appendedSample s = clip (volume (s.p 27) (s.p 26) (compress (s.p 25)
    (decimate (s.p 24) (div32 (subSamples (prepared s)).1 0x41000000#32)))) := by
  have hp (i : Fin 28) : (subSamples (prepared s)).2.p i = s.p i :=
    (p_of_constants (subSamples_subSampled (prepared s)).constants i).trans (prepared_p s i)
  have height : nat32 8 = 0x41000000#32 := by decide
  rw [appendedSample]
  generalize subSamples (prepared s) = r at hp ⊢
  rw [outputSample, hp, hp, hp, hp, height]

theorem phaserOffsetVolume_state (t : State) : phaserOffsetStep (volumeStep t) =
    { t with env := (volumeStep t).env, pha := (phaserOffsetStep t).pha } := rfl

/-- `prepared s` in terms of the registers that the sample leaves. -/
theorem prepared_eq : prepared s = { ramped s with
    env := (sampleStep (prepared s)).env
    pha := { s.pha with
      fphase := (sampleStep (prepared s)).pha.fphase, iphase := (sampleStep (prepared s)).pha.iphase } } := by
  have hstate : prepared s = { ramped s with env := (prepared s).env, pha := (prepared s).pha } := by
    rw [prepared, phaserOffsetVolume_state, staged]
  rw [sampleStep_env, sampleStep_pha]
  rw [prepared_pha] at hstate ⊢
  exact hstate

end

section
variable {s : State} (h : iteration s = sampleStep (prepared s))
include h

/-- An iteration that does not end the run answers its sample. -/
theorem stepped_of_appended : stepped s = State.present
    { (subSamples (prepared s)).2 with acc := s.acc ++ [appendedSample s] }
    { err := 0#4, data := 1#32 ++ appendedSample s } := by
  have hacc : (sampleStep (prepared s)).acc = s.acc ++ [appendedSample s] := by
    rw [sampleStep_acc, prepared_acc, appendedSample]
  have hsub : (subSamples (prepared s)).2.acc = s.acc := by rw [subSamples_state, prepared_acc]
  rw [stepped, h, stepResponse_appended hacc, sampleStep, accAppend, hsub, appendedSample]

theorem prepared_eq_stepped : prepared s = { ramped s with
    env := (stepped s).env
    pha := { s.pha with fphase := (stepped s).pha.fphase, iphase := (stepped s).pha.iphase } } := by
  rw [stepped, h, present_env, present_pha, ← prepared_eq]

theorem stepped_env : (stepped s).env = envelopeVolume (s.p 4) (advanceStages (triggered s).env) := by
  rw [stepped, h, present_env, sampleStep_env, prepared_env]

theorem stepped_pha : (stepped s).pha = { s.pha with
    fphase := add32 s.pha.fphase s.pha.fdphase, iphase := phaserTap (add32 s.pha.fphase s.pha.fdphase)
    ipp := s.pha.ipp + 8#10 } := by
  rw [stepped, h, present_pha, sampleStep_pha, prepared_pha]

theorem stepped_ring (index : Nat) (hne : ∀ j, j < 8 → index ≠ (s.pha.ipp.toNat + j) % 1024) :
    memRead .phaser index (stepped s) = memRead .phaser index s := by
  rw [memRead_phaser, memRead_phaser, stepped, h, present_phaser, sampleStep_ring s index hne]

theorem stepped_noiseKept : NoiseKept s (stepped s) := by
  rw [stepped, h]
  exact (sampleStep_noiseKept s).present _

theorem stepped_status (hfree : ¬ Limited (triggered s)) : (stepped s).status = s.status := by
  rw [stepped, h, present_status, sampleStep_status, prepared_status hfree]

end

/-! ## The outcomes of SYNTH_STEP -/

theorem limited_triggered_iff (s : State) : Limited (triggered s) ↔
    lt64 (triggered s).freq.fmaxperiod (mul64 (triggered s).freq.fperiod
      (add64 (triggered s).freq.fslide (triggered s).freq.fdslide)) = true ∧ lt32 0#32 (s.p 8) = true := by
  rw [Limited, triggered_p]

/-- What every SYNTH_STEP that ends its run keeps, and its response. -/
theorem stepped_ended {s : State} (hp : s.status.playing = true) (hended : (stepped s).status.playing = false) :
    datapathState (stepped s) = datapathState s ∧ (stepped s).ports.rsp = some { err := 0#4, data := 0#64 } := by
  obtain ⟨-, -, h⟩ | ⟨-, -, hstatus, -⟩ := iteration_ends_or_appends hp
  · have hacc : (iteration s).acc = s.acc := congrArg DatapathState.acc h
    exact ⟨h, by rw [stepped, present_ports, stepResponse_kept (congrArg List.length hacc)]⟩
  · rw [stepped, present_status, hstatus, hp] at hended
    cases hended

/-- Settles O49: the clauses about the datapath, then the outcomes of the iteration in their order. -/
theorem synthStepAppendsOrEnds : Obligations.SynthStepAppendsOrEnds := by
  refine ⟨?_, filters_eq, decimate_eq, truncf32_unpack, compress_eq, fun _ _ _ => rfl, fun s hf =>
    ⟨exec_synthStep_idle hf, ?_⟩⟩
  · rintro u _ _ rfl rfl
    rw [← noiseIndex_eq]
    exact waveform_eq u
  · rintro r _ _ _ hp hr rfl rfl rfl
    obtain rfl : triggered s = r := hr.symm
    have hconstants : constants (stepped s) = constants s := iteration_constants hp
    have hports := Interface.iteration_ports s
    refine ⟨stepped s, exec_synthStep_playing hf hp, congrArg Constants.params hconstants,
      congrArg Constants.speed hconstants, congrArg Constants.amp hconstants, congrArg Constants.repLimit hconstants,
      congrArg Constants.fdphase hconstants, congrArg Constants.fltwD hconstants,
      congrArg Constants.fltdmp hconstants, congrArg Constants.flthpD hconstants,
      congrArg Constants.seeded hconstants, (congrArg Constants.fatal hconstants).trans hf,
      congrArg Constants.errflags hconstants, (congrArg Ports.input hports :), (congrArg Ports.stream hports :),
      fun hended => ?_, ?_⟩
    · obtain ⟨h, hresponse⟩ := stepped_ended hp hended
      exact ⟨congrArg DatapathState.acc h, hresponse, congrArg DatapathState.phase h, congrArg DatapathState.rng h,
        congrArg DatapathState.pink h, congrArg DatapathState.lfsr h, congrArg DatapathState.pha h,
        congrArg DatapathState.fltp h, congrArg DatapathState.fltdp h, congrArg DatapathState.fltw h,
        congrArg DatapathState.fltphp h, memRead_of_datapathState h⟩
    · obtain ⟨hfull, h⟩ | ⟨hroom, hlimited, h⟩ | ⟨hroom, hfree, hstage, h⟩ | ⟨hroom, hfree, hstage, h⟩ :=
        iteration_cases hp
      · rw [if_pos hfull]
        exact stepped_of_ended h rfl rfl
      · rw [if_neg hroom, if_pos ((limited_triggered_iff s).mp hlimited)]
        exact stepped_of_ended h (triggered_status s) (acc_of_datapathState (triggered_controlOnly s).2)
      · rw [if_neg hroom, if_neg ((limited_triggered_iff s).not.mp hfree), if_pos hstage]
        rw [stepped_of_ended h (staged_status hfree) (acc_of_datapathState (staged_controlOnly s).2), staged, ramped]
      · rw [if_neg hroom, if_neg ((limited_triggered_iff s).not.mp hfree), if_neg hstage]
        obtain ⟨hvol, hadvanced⟩ := envelopeVolume_eq (s.p 4) hstage
        have hnoise := stepped_noiseKept h
        refine ⟨prepared s, _, _, appendedSample s, prepared_eq_stepped h, ?_, appendedSample_eq s,
          stepped_of_appended h, stepped_status h hfree, ?_, ?_, ?_, ?_, ?_, stepped_ring h, hnoise.nwhite,
          hnoise.npink, hnoise.lfsr, hnoise.rng⟩
        · rw [Prod.mk.eta, subSamples_iterate]
          refine congrArg (fun turn : F32 × State → F32 × State => turn^[8] (0#32, prepared s)) ?_
          rfl
        · rwa [stepped_env h]
        · rwa [stepped_env h]
        · rw [stepped_pha h]
        · rw [stepped_pha h]
          exact RunStart.phaserTap_toNat _
        · rw [stepped_pha h]
          exact BitVec.toNat_add _ _

end Sys2Proof.SynthStep
end

section
/-!
SYNTH_RUN (44_synth_control.md R172 to R174): its loop ends the run, taking a first step apart changes nothing, and a run
without repeats has one sample for each iteration of its stages.
-/

namespace Sys2Proof.SynthRun

open Sys2Proof Sys2Proof.Machine Sys2Proof.Laws Sys2Proof.ControlSteps Sys2Proof.Iteration Sys2Proof.SynthStep

/-! ## The loop ends (R172, R173) -/

/-- What an iteration found in a run does to the length: it ends the run and keeps it, or there was room for the sample
it appends. -/
theorem iteration_length {s : State} (hp : s.status.playing = true) :
    ((iteration s).status.playing = false ∧ (iteration s).acc.length = s.acc.length) ∨
    (s.acc.length < 1048576 ∧ (iteration s).status.playing = true ∧
      (iteration s).acc.length = s.acc.length + 1) := by
  obtain ⟨hended, -, h⟩ | ⟨hroom, -, hstatus, hacc⟩ := iteration_ends_or_appends hp
  · exact .inl ⟨hended, congrArg List.length (acc_of_datapathState h)⟩
  · exact .inr ⟨hroom, by rw [hstatus, hp], by rw [hacc, List.length_append, List.length_singleton]⟩

/-- The loop is its iterations, up to the one that ends the run; `fuel` is enough where it exceeds the room left. -/
theorem runLoop_eq_iterate (fuel : Nat) (s : State) (hfuel : 1048577 ≤ s.acc.length + fuel) (hpos : 0 < fuel) :
    ∃ n, n ≤ fuel ∧ runLoop fuel s = iteration^[n] s ∧ (runLoop fuel s).status.playing = false ∧
      ∀ m, m < n → (iteration^[m] s).status.playing = true := by
  induction fuel generalizing s with
  | zero => omega
  | succ fuel ih =>
    cases hp : s.status.playing with
    | false => exact ⟨0, Nat.zero_le _, runLoop_ended _ hp, by rw [runLoop_ended _ hp, hp], nofun⟩
    | true =>
      rw [runLoop_playing _ hp]
      obtain ⟨n, hn, hrun, hended, hbefore⟩ : ∃ n, n ≤ fuel ∧ runLoop fuel (iteration s) = iteration^[n] (iteration s) ∧
          (runLoop fuel (iteration s)).status.playing = false ∧
          ∀ m, m < n → (iteration^[m] (iteration s)).status.playing = true := by
        obtain ⟨hended, -⟩ | ⟨hroom, -, hlength⟩ := iteration_length hp
        · exact ⟨0, Nat.zero_le _, runLoop_ended _ hended, by rw [runLoop_ended _ hended, hended], nofun⟩
        · exact ih (iteration s) (by omega) (by omega)
      refine ⟨n + 1, Nat.succ_le_succ hn, hrun, hended, fun m hm => ?_⟩
      cases m with
      | zero => exact hp
      | succ m => exact hbefore m (Nat.lt_of_succ_lt_succ hm)

theorem runLoop_constants (fuel : Nat) (s : State) : constants (runLoop fuel s) = constants s := by
  induction fuel generalizing s with
  | zero => rfl
  | succ fuel ih =>
    cases hp : s.status.playing with
    | false => rw [runLoop_ended _ hp]
    | true => rw [runLoop_playing _ hp, ih, iteration_constants hp]

/-- Only below the cap is a sample appended. -/
theorem runLoop_length_le (fuel : Nat) (s : State) : (runLoop fuel s).acc.length ≤ max s.acc.length 1048576 := by
  induction fuel generalizing s with
  | zero => exact le_max_left _ _
  | succ fuel ih =>
    cases hp : s.status.playing with
    | false =>
      rw [runLoop_ended _ hp]
      exact le_max_left _ _
    | true =>
      have hrest := ih (iteration s)
      rw [runLoop_playing _ hp]
      obtain ⟨-, hlength⟩ | ⟨hroom, -, hlength⟩ := iteration_length hp <;> omega

theorem sampleCap_succ : Config.sampleCap + 1 = 1048577 := by rw [AccumulatorCommands.sampleCap_eq]

theorem exec_synthRun {s : State} (hf : s.status.fatal = false) :
    exec .synthRun s = respond ((finishRun s).accSize.setWidth 64) (finishRun s) := by
  rw [exec, execSynthRun, fatalGate_pass _ hf]

theorem finishRun_ended (s : State) : (finishRun s).status.playing = false := by
  obtain ⟨-, -, -, hended, -⟩ := runLoop_eq_iterate 1048577 s (Nat.le_add_left ..) (by decide)
  rw [finishRun, sampleCap_succ]
  exact hended

/-- Settles O50: the loop is its iterations, none of which changes a constant or the ports. -/
theorem synthRunEndsTheRun : Obligations.SynthRunEndsTheRun := by
  intro s hf
  have hconstants : constants (finishRun s) = constants s := runLoop_constants _ s
  have hextends : DataEffects.Extends s (finishRun s) := DataEffects.runLoop_extends _ s
  obtain ⟨n, hn, hrun, -, hbefore⟩ := runLoop_eq_iterate 1048577 s (Nat.le_add_left ..) (by decide)
  rw [← sampleCap_succ] at hrun
  exact ⟨n, finishRun s, hn, hrun, exec_synthRun hf, finishRun_ended s, hbefore, hextends.params,
    congrArg Constants.seeded hconstants, (congrArg Constants.fatal hconstants).trans hf,
    congrArg Constants.errflags hconstants, Interface.runLoop_ports _ s, hextends.acc, runLoop_length_le _ s⟩

/-! ## A step before the run (R172) -/

/-- The bound does not matter once the loop has ended. -/
theorem runLoop_succ_of_ended (fuel : Nat) {s : State} (h : (runLoop fuel s).status.playing = false) :
    runLoop (fuel + 1) s = runLoop fuel s := by
  induction fuel generalizing s with
  | zero => exact runLoop_ended 1 h
  | succ fuel ih =>
    cases hp : s.status.playing with
    | false => rw [runLoop_ended _ hp, runLoop_ended _ hp]
    | true =>
      rw [runLoop_playing _ hp] at h
      rw [runLoop_playing _ hp, runLoop_playing _ hp, ih h]

theorem finishRun_iteration {s : State} (hp : s.status.playing = true) : finishRun (iteration s) = finishRun s := by
  have hended := finishRun_ended s
  rw [finishRun, runLoop_playing _ hp] at hended
  rw [finishRun, finishRun, runLoop_playing _ hp, runLoop_succ_of_ended _ hended]

/-- `s` with its response taken. -/
def taken (s : State) : State := { s with ports := { s.ports with rsp := none } }

/-- SYNTH_RUN does not see whether a response waits, and writes its own. -/
theorem exec_synthRun_taken_present {s : State} (hf : s.status.fatal = false) (r : Response) :
    exec .synthRun (taken (s.present r)) = exec .synthRun s := by
  have hports : taken (s.present r) = Noninterference.setUnread s.status.errflags { s.ports with rsp := none } s := rfl
  have hfinish : finishRun (taken (s.present r)) =
      Noninterference.setUnread s.status.errflags { s.ports with rsp := none } (finishRun s) :=
    (congrArg finishRun hports).trans (Noninterference.runLoop_setUnread _ _ _ s)
  have hkept : (finishRun s).ports = s.ports := Interface.runLoop_ports _ s
  have herrors : (finishRun s).status.errflags = s.status.errflags :=
    congrArg Constants.errflags (runLoop_constants _ s)
  rw [exec_synthRun (s := taken (s.present r)) hf, exec_synthRun hf, hfinish, ← hkept, ← herrors]
  rfl

/-- Settles O51: the step of a run is the first turn of the loop, and no step is none. -/
theorem stepThenRunIsRun : Obligations.StepThenRunIsRun := by
  intro s t hf hexec
  cases hp : s.status.playing with
  | false =>
    rw [exec_synthStep_idle hf hp] at hexec
    obtain rfl := respond_next hexec
    exact exec_synthRun_taken_present hf _
  | true =>
    rw [exec_synthStep_playing hf hp] at hexec
    obtain rfl := Host.Outcome.next.inj hexec
    have hfatal : (iteration s).status.fatal = false := (congrArg Constants.fatal (iteration_constants hp)).trans hf
    refine (exec_synthRun_taken_present hfatal _).trans ?_
    rw [exec_synthRun hfatal, exec_synthRun hf, finishRun_iteration hp]

/-! ## The length of a run without repeats (R174) -/

/-- The iterations of all stages together. -/
def envelopeLength (e : EnvRegs) : Nat := e.len0.toNat + e.len1.toNat + e.len2.toNat

/-- The iterations of the stages before `stage`. -/
def stageStart (e : EnvRegs) : EnvStage → Nat
  | .attack => 0
  | .sustain => e.len0.toNat
  | .decay => e.len0.toNat + e.len1.toNat
  | .stopped => envelopeLength e

/-- The iterations an envelope has done that has run through its stages. -/
def elapsed (e : EnvRegs) : Nat := stageStart e e.stage + e.time.toNat

/-- An envelope in a stage, with its time up to the end of the stage. -/
structure Timed (e : EnvRegs) : Prop where
  stage : e.stage ≠ .stopped
  time : e.time.toNat ≤ duration e e.stage

theorem Timed.elapsed_le {e : EnvRegs} (h : Timed e) : elapsed e ≤ envelopeLength e := by
  obtain ⟨hstage, htime⟩ := h
  unfold elapsed envelopeLength
  cases hs : e.stage with
  | stopped => exact absurd hs hstage
  | attack => simp only [hs, duration, stageStart] at htime ⊢; omega
  | sustain => simp only [hs, duration, stageStart] at htime ⊢; omega
  | decay => simp only [hs, duration, stageStart] at htime ⊢; omega

/-- The stages without a duration that are passed over take no iterations. -/
theorem stageStart_nextStage {e : EnvRegs} {stage : EnvStage} (h : stage ≠ .stopped) :
    stageStart e (nextStage e stage) = stageStart e stage + duration e stage := by
  have hdecay : stageStart e (nextStage e .sustain) = e.len0.toNat + e.len1.toNat := by
    rw [nextStage]
    split
    · rfl
    · next h => simp [stageStart, envelopeLength, not_not.mp h]
  cases stage with
  | stopped => exact absurd rfl h
  | decay => rfl
  | sustain => exact hdecay
  | attack =>
    by_cases hlen : e.len1 = 0#32
    · rw [nextStage, if_neg (not_not.mpr hlen)]
      refine hdecay.trans ?_
      simp [stageStart, duration, hlen]
    · rw [nextStage, if_pos hlen]
      exact (Nat.zero_add _).symm

/-- The loop of R167 keeps the iterations done. -/
theorem elapsed_advanceStages {e : EnvRegs} (h : Timed e) : elapsed (advanceStages e) = elapsed e := by
  obtain ⟨-, heq⟩ | ⟨hstage, hover, heq⟩ := advanceStages_cases e <;> rw [heq]
  have hend : e.time.toNat = duration e e.stage := Nat.le_antisymm h.time hover
  rw [elapsed, elapsed, hend, ← stageStart_nextStage hstage]
  rfl

/-- An envelope advanced to Stopped has done all its iterations. -/
theorem elapsed_of_stopped {e : EnvRegs} (h : Timed e) (hstopped : (advanceStages e).stage = .stopped) :
    elapsed e = envelopeLength e := by
  have htime : (advanceStages e).time = 0#32 := advanceStages_time (hstopped ▸ h.stage.symm)
  rw [← elapsed_advanceStages h, elapsed, hstopped, htime, advanceStages_state]
  rfl

theorem envelopeLength_advanceStages (e : EnvRegs) : envelopeLength (advanceStages e) = envelopeLength e := by
  rw [advanceStages_state]
  rfl

section
variable (punch : F32) {e : EnvRegs} (hstage : e.stage ≠ .stopped)
include hstage

theorem envelopeLength_envelopeVolume : envelopeLength (envelopeVolume punch e) = envelopeLength e := by
  rw [(envelopeVolume_eq punch hstage).2]
  rfl

variable (h : Settled e)
include h

/-- The time of a stage that is not over does not wrap. -/
theorem envelopeVolume_time : (envelopeVolume punch e).time.toNat = e.time.toNat + 1 := by
  have hlt := h.time_lt rfl hstage
  have hbound : duration e e.stage ≤ 2 ^ 32 - 1 := by
    cases e.stage <;> simp only [duration] <;> omega
  rw [(envelopeVolume_eq punch hstage).2, BitVec.toNat_add]
  exact Nat.mod_eq_of_lt (show e.time.toNat + 1 < 2 ^ 32 by omega)

theorem timed_envelopeVolume : Timed (envelopeVolume punch e) := by
  have htime := envelopeVolume_time punch hstage h
  have hlt := h.time_lt rfl hstage
  rw [(envelopeVolume_eq punch hstage).2] at htime ⊢
  exact ⟨hstage, htime.trans_le hlt⟩

theorem elapsed_envelopeVolume : elapsed (envelopeVolume punch e) = elapsed e + 1 := by
  have htime := envelopeVolume_time punch hstage h
  rw [(envelopeVolume_eq punch hstage).2] at htime ⊢
  rw [elapsed, htime]
  rfl

end

/-- A run without repeats whose envelope lasts `n` iterations: it has a sample for each iteration done. -/
structure Running (n : Nat) (s : State) : Prop where
  playing : s.status.playing = true
  noRepeat : s.rep.limit = 0#32
  timed : Timed s.env
  total : envelopeLength s.env = n
  samples : s.acc.length = elapsed s.env
  room : s.acc.length ≤ 1048576

/-- How such a run ends. -/
def Outcome (n : Nat) (s : State) : Prop :=
  s.status.stopCause = .frequencyLimit ∨
  (s.status.stopCause = .envelope ∧ s.env.stage = .stopped ∧ s.acc.length = n ∧ n < 1048576) ∨
  (s.acc.length = 1048576 ∧ 1048576 ≤ n)

/-- An iteration of such a run ends it so, or the run goes on. -/
theorem Running.iteration {n : Nat} {s : State} (h : Running n s) :
    ((iteration s).status.playing = false ∧ Outcome n (iteration s)) ∨ Running n (iteration s) := by
  have henv : (triggered s).env = s.env := by
    rw [triggered, arpeggioStep_env, repeatStep_waiting (.inl h.noRepeat)]
  obtain ⟨hfull, heq⟩ | ⟨-, -, heq⟩ | ⟨hroom, -, hstage, heq⟩ | ⟨hroom, hfree, hstage, heq⟩ := iteration_cases h.playing
  · have hle := h.timed.elapsed_le
    rw [← h.samples, h.total] at hle
    rw [heq]
    exact .inl ⟨rfl, .inr (.inr ⟨le_antisymm h.room hfull, hfull.trans hle⟩)⟩
  · rw [heq]
    exact .inl ⟨rfl, .inl rfl⟩
  · have hacc : (endRun .envelope (staged s)).acc = s.acc := by
      rw [endRun_acc, acc_of_datapathState (staged_controlOnly s).2]
    have hlength : s.acc.length = n := by rw [h.samples, elapsed_of_stopped h.timed (henv ▸ hstage), h.total]
    rw [heq]
    exact .inl ⟨rfl, .inr (.inl ⟨rfl, hstage, by rw [hacc, hlength], hlength ▸ not_le.mp hroom⟩)⟩
  · have hlimit := congrArg Constants.repLimit (iteration_constants h.playing)
    have hstatus : (Machine.iteration s).status = s.status := by rw [heq, sampleStep_status, prepared_status hfree]
    have henv' : (Machine.iteration s).env = envelopeVolume (s.p 4) (advanceStages s.env) := by
      rw [heq, sampleStep_env, prepared_env, henv]
    have hlength : (Machine.iteration s).acc.length = s.acc.length + 1 := by
      rw [heq, sampleStep_acc, prepared_acc, List.length_append, List.length_singleton]
    have hsettled := settled_advanceStages s.env
    rw [henv] at hstage
    refine .inr ⟨by rw [hstatus, h.playing], hlimit.trans h.noRepeat, ?_, ?_, ?_, by omega⟩
    · rw [henv']
      exact timed_envelopeVolume _ hstage hsettled
    · rw [henv', envelopeLength_envelopeVolume _ hstage, envelopeLength_advanceStages, h.total]
    · rw [henv', hlength, elapsed_envelopeVolume _ hstage hsettled, elapsed_advanceStages h.timed, h.samples]

theorem Running.outcome {n : Nat} (fuel : Nat) {s : State} (h : Running n s)
    (hended : (runLoop fuel s).status.playing = false) : Outcome n (runLoop fuel s) := by
  induction fuel generalizing s with
  | zero => exact absurd hended (by rw [runLoop, h.playing]; decide)
  | succ fuel ih =>
    rw [runLoop_playing _ h.playing] at hended ⊢
    obtain ⟨hnow, houtcome⟩ | hnext := h.iteration
    · rwa [runLoop_ended _ hnow]
    · exact ih hnext hended

/-- A run begins at the beginning of its attack. -/
theorem running_startRun {s : State} (hlimit : (startRun s).rep.limit = 0#32) :
    Running (envelopeLength (startRun s).env) (startRun s) where
  playing := by rw [Noninterference.startRun_status]
  noRepeat := hlimit
  timed := by
    rw [RunStart.startRun_fields]
    exact ⟨nofun, Nat.zero_le _⟩
  total := rfl
  samples := by
    rw [RunStart.startRun_fields]
    rfl
  room := by
    rw [DataEffects.startRun_acc]
    exact Nat.zero_le _

theorem Running.present {n : Nat} {s : State} (h : Running n s) (r : Response) : Running n (s.present r) := { h with }

/-- Settles O52: the outcome of the run, the frequency limit apart. -/
theorem runLengthIsTheEnvelopeLength : Obligations.RunLengthIsTheEnvelopeLength := by
  rintro s t u _ hf hs hstart hlimit hrun hcause rfl
  have ht := Noninterference.synthStart_next hf hs hstart
  have hfatal : t.status.fatal = false := by rw [ht, present_status, Noninterference.startRun_status, hf]
  have hrunning : Running (envelopeLength t.env) t := by
    rw [ht, present_rep] at hlimit
    rw [ht, present_env]
    exact (running_startRun hlimit).present _
  have hu := Noninterference.synthRun_next hfatal hrun
  rw [hu, present_status] at hcause
  rw [hu, present_acc, present_status, present_env]
  obtain hfrequency | ⟨henvelope, hstage, hlength, hshort⟩ | ⟨hlength, hlong⟩ :=
    hrunning.outcome _ (finishRun_ended t)
  · exact absurd hfrequency hcause
  · exact ⟨hlength.trans (min_eq_left hshort.le).symm, fun _ => ⟨henvelope, hstage⟩⟩
  · exact ⟨hlength.trans (min_eq_right hlong).symm, fun hshort => absurd hlong hshort.not_ge⟩

end Sys2Proof.SynthRun
end

section
/-!
The words of the noise banks (45_synth_datapath.md R182; 44_synth_control.md R158). A fill writes word `i` from its draw
`i`, and `x * 2.0f - 1.0f` of a draw of at most 24 bits rounds nowhere.
-/

namespace Sys2Proof.NoiseBankWords

open Sys2Proof Sys2Proof.Machine Sys2Proof.ExactFloat Sys2Proof.RoundingBounds Sys2Proof.Noninterference

/-! ## The map of a draw to a word -/

/-- A binary32 sum that the format holds is exact. -/
theorem unpack_add32 {x y : F32} {a b : Bool} {m n : Nat} (hx : binary32.unpack x.toNat = .fin a m)
    (hy : binary32.unpack y.toNat = .fin b n) (h : Holds binary32 (signedSum a m b n).2) :
    binary32.unpack (add32 x y).toNat = .fin (signedSum a m b n).1 (signedSum a m b n).2 := by
  have hadd : binary32.add x.toNat y.toNat = binary32.round (signedSum a m b n).1 (signedSum a m b n).2 1 := by
    rw [FloatFormat.add, hx, hy]
  have hpattern : (add32 x y).toNat = binary32.round (signedSum a m b n).1 (signedSum a m b n).2 1 := by
    rw [add32, hadd]
    exact Nat.mod_eq_of_lt (round_lt_two_pow (f := binary32) (by decide) (by decide) _ _ _)
  have hround := unpack_round_of_holds (f := binary32) (by decide) (by decide) Nat.one_pos h (signedSum a m b n).1
  rwa [Nat.mul_one, ← hpattern] at hround

/-- A difference of two values from 0 up. -/
theorem signedSum_difference (k c : Nat) {unit : Nat} (hunit : 0 < unit) :
    signedSum false (k * unit) true (c * unit) = (decide (k < c), ((k : Int) - c).natAbs * unit) := by
  rw [signedSum, if_neg Bool.false_ne_true, ← Nat.sub_mul, ← Nat.sub_mul]
  simp only [Nat.mul_lt_mul_right hunit]
  obtain hlt | rfl | hgt := Nat.lt_trichotomy k c
  · rw [if_neg hlt.not_gt, if_pos hlt, decide_eq_true hlt, show ((k : Int) - c).natAbs = c - k by omega]
  · simp
  · rw [if_pos hgt, decide_eq_false hgt.not_gt, show ((k : Int) - c).natAbs = k - c by omega]

theorem unpack_negOne : binary32.unpack (binary32.negate one32.toNat) = .fin true (2 ^ binary32.scale) := by
  decide +kernel

theorem unpack_negOne32 : binary32.unpack negOne32.toNat = .fin true (2 ^ 149) := by decide +kernel

theorem unpack_two32 : binary32.unpack two32.toNat = .fin false (2 ^ 150) := by decide +kernel

/-- A draw of the value `k / (2 * c)`, with `k` of 24 bits, becomes the word `k / c - 1`. -/
theorem unpack_bankWord {x : F32} {k c e : Nat} (hx : binary32.unpack x.toNat = .fin false (k * 2 ^ e))
    (hk : k < 2 ^ 24) (hc : c < 2 ^ 24) (he : e < 253) (hce : c * 2 ^ (e + 1) = 2 ^ 149) :
    binary32.unpack (bankWord x).toNat = .fin (decide (k < c)) (((k : Int) - c).natAbs * 2 ^ (e + 1)) := by
  have hdouble : k * 2 ^ e * 2 ^ 150 = k * 2 ^ (e + 1) * 2 ^ binary32.scale := by
    have hscale : binary32.scale = 149 := rfl
    rw [hscale]
    ring
  have hproduct := mul32_represents hx unpack_two32 hdouble (holds_binary32 (e + 1) hk he)
  have hheld : Holds binary32 (((k : Int) - c).natAbs * 2 ^ (e + 1)) := holds_binary32 (e + 1) (by omega) he
  have hdifference := signedSum_difference k c (Nat.two_pow_pos (e + 1))
  rw [hce] at hdifference
  have hsum := unpack_add32 hproduct.value unpack_negOne32 (by rwa [hdifference])
  rwa [hdifference] at hsum

/-! ## The words of a fill (R182) -/

section
variable {draw : State → F32 × State} (hdraw : DrawsFromNoise draw)
include hdraw

/-- Word `index` of a filled bank is made of the fill's draw `index`. -/
theorem memRead_refreshBank {space : Space} {n index : Nat} {s : State} (hwf : Memory.wf n (s.memory space) = true)
    (hindex : index < n) : memRead space index (refreshBank space draw n s) = drawnWord draw s index := by
  rw [refreshBank_eq_fill hdraw, memRead, memory_setMemory, read_fill _ hwf le_rfl, if_pos hindex]

end

/-- Draw `n` is the first one after `n` draws. -/
theorem draw32_iterate (x : Word64) (n : Nat) : draw32 (xorshift^[n] x) 0 = draw32 x n := by
  rw [draw32, draw32, ← Function.iterate_add_apply, Nat.add_comm]

theorem drawnWord_white (s : State) (index : Nat) {k : Nat} (hk : k = (draw32 s.rng index).toNat / 2 ^ 8) :
    binary32.unpack (drawnWord nextFloat s index).toNat =
      .fin (decide (k < 2 ^ 23)) (((k : Int) - 2 ^ 23).natAbs * 2 ^ 126) := by
  have hdraw := FloatDraw.nextFloat_represents (afterDraws nextFloat index s)
  rw [DrawCounts.afterDraws_nextFloat_rng, draw32_iterate, ← hk] at hdraw
  have hlt : k < 2 ^ 24 := hk ▸ FloatDraw.top24_lt _
  have hword := unpack_bankWord (c := 2 ^ 23) hdraw.value hlt (by decide) (by decide) (by decide)
  exact_mod_cast hword

/-- The sub-generators stay below 13107 from value to value (42_pink_noise.md R122). -/
theorem pinkBound_iterate {s : State} (hw : ∀ i : Fin 5, s.pink.w[i].toNat < 13107) (n : Nat) (i : Fin 5) :
    ((fun u => (pinkNextValue u).2)^[n] s).pink.w[i].toNat < 13107 := by
  induction n generalizing i with
  | zero => exact hw i
  | succ n ih =>
    rw [Function.iterate_succ_apply', PinkNoise.pinkNextValue_eq]
    exact PinkNoise.redrawn_toNat_lt _ _ ih i

/-- The draws of a pink fill are its successive pink values. -/
theorem afterDraws_pinkNextFloat (n : Nat) (s : State) :
    afterDraws pinkNextFloat n s = (fun u => (pinkNextValue u).2)^[n] s := by
  have hdraw : (fun u => (pinkNextFloat u).2) = fun u => (pinkNextValue u).2 := by
    funext u
    rw [pinkNextFloat]
  rw [afterDraws, hdraw]

theorem drawnWord_pink {s : State} (hw : ∀ i : Fin 5, s.pink.w[i].toNat < 13107) (index : Nat) {n : Nat}
    (hn : n = (pinkNextValue ((fun u => (pinkNextValue u).2)^[index] s)).1.toNat) :
    n ≤ 65530 ∧ binary32.unpack (drawnWord pinkNextFloat s index).toNat =
      .fin (decide (n < 32768)) (((n : Int) - 32768).natAbs * 2 ^ 134) := by
  have hbound := pinkBound_iterate hw index
  rw [drawnWord, afterDraws_pinkNextFloat]
  generalize (fun u => (pinkNextValue u).2)^[index] s = t at hn hbound
  have hle := PinkNoise.pinkNextValue_toNat_le hbound
  have hdraw := PinkNoise.pinkNextFloat_represents hbound
  rw [← hn] at hle hdraw
  exact ⟨hle, unpack_bankWord (c := 32768) hdraw.value (by omega) (by decide) (by decide) (by decide)⟩

theorem memRead_refreshWhite {s : State} (hwf : Memory.wf Config.noiseLen s.nwhite = true) {index : Nat}
    (hindex : index < Config.noiseLen) : memRead .nwhite index (refreshWhite s) = drawnWord nextFloat s index := by
  rw [refreshWhite_eq_refreshBank]
  exact memRead_refreshBank nextFloat_drawsFromNoise hwf hindex

theorem memRead_refreshPink {s : State} (hwf : Memory.wf Config.noiseLen s.npink = true) {index : Nat}
    (hindex : index < Config.noiseLen) : memRead .npink index (refreshPink s) = drawnWord pinkNextFloat s index := by
  rw [refreshPink_eq_refreshBank]
  exact memRead_refreshBank pinkNextFloat_drawsFromNoise hwf hindex

/-- Settles O35: a fill of each bank, word by word. -/
theorem whiteBankWordsAreExact : Obligations.WhiteBankWordsAreExact := by
  refine ⟨fun s index k hwf hindex hk => ?_, fun s index n hwf hw hindex hn => ?_⟩
  · rw [memRead_refreshWhite hwf hindex]
    exact drawnWord_white s index hk
  · rw [memRead_refreshPink hwf hindex]
    exact drawnWord_pink hw index hn

end Sys2Proof.NoiseBankWords
end

section
/-!
`AdvancePhase()` (45_synth_datapath.md R181; 00_scope.md R16). The remainder of two values that binary64 holds is held:
it is below the divisor and a multiple of the divisor's last bit. The phase plus one unit stays finite, since a unit
added to a value with a far higher last bit is rounded away.
-/

namespace Sys2Proof.PhaseAccumulator

open Sys2Proof Sys2Proof.Machine Sys2Proof.Laws Sys2Proof.ExactFloat Sys2Proof.FloatPatterns Sys2Proof.RoundingBounds

/-! ## The remainder (R16) -/

theorem lastBit_mono {f : FloatFormat} {m n : Nat} (h : m ≤ n) : lastBit f m ≤ lastBit f n := by
  simp only [lastBit, Nat.log2_eq_log_two]
  exact Nat.sub_le_sub_right (Nat.log_mono_right h) _

/-- A format holds the remainder of two values that it holds. -/
theorem holds_mod {f : FloatFormat} (hprec : 1 ≤ f.prec) {k n : Nat} (hk : Holds f k) (hn : Holds f n)
    (hpos : 0 < n) : Holds f (k % n) := by
  obtain hlt | hle := Nat.lt_or_ge k n
  · rwa [Nat.mod_eq_of_lt hlt]
  · have hdvd : 2 ^ lastBit f n ∣ k := (Nat.pow_dvd_pow 2 (lastBit_mono hle)).trans hk.exact
    obtain ⟨m, hm⟩ := (Nat.dvd_mod_iff hn.exact).mpr hdvd
    have hlt : k % n < n := Nat.mod_lt k hpos
    have hlast := lastBit_mono (f := f) hlt.le
    have hm' : k % n = m * 2 ^ lastBit f n := hm.trans (Nat.mul_comm ..)
    have hsignificand : m ≤ n / 2 ^ lastBit f n :=
      (Nat.le_div_iff_mul_le (Nat.two_pow_pos _)).mpr (hm' ▸ hlt.le)
    rw [hm'] at hlast ⊢
    have hfinite := hn.finite
    exact holds_of_significand m _ (hsignificand.trans_lt (div_lastBit_lt hprec n)) (by omega)

theorem holds_of_unpack {x : F64} {neg : Bool} {k : Nat} (hx : binary64.unpack x.toNat = .fin neg k) :
    Holds binary64 k := by
  obtain ⟨magnitude, hfinite, -, rfl⟩ := unpack_eq_fin (f := binary64) (by decide) (by decide) x.isLt hx
  exact holds_magnitudeValue (by decide) (by decide) hfinite

theorem toNat_round (neg : Bool) (n d : Nat) :
    (BitVec.ofNat 64 (binary64.round neg n d)).toNat = binary64.round neg n d :=
  Nat.mod_eq_of_lt (round_lt_two_pow (f := binary64) (by decide) (by decide) neg n d)

/-- A value that binary64 holds is exact as a result. -/
theorem unpack_ofNat_round {v : Nat} (h : Holds binary64 v) :
    binary64.unpack (BitVec.ofNat 64 (binary64.round false v 1)).toNat = .fin false v := by
  have hround := unpack_round_of_holds (f := binary64) (by decide) (by decide) Nat.one_pos h false
  rwa [Nat.mul_one, ← toNat_round] at hround

/-- `fmod64` does not round. -/
theorem unpack_fmod64 {a b : F64} {k n : Nat} (ha : binary64.unpack a.toNat = .fin false k)
    (hb : binary64.unpack b.toNat = .fin false n) (hn : 0 < n) :
    binary64.unpack (fmod64 a b).toNat = .fin false (k % n) := by
  have hmod : fmod64 a b = BitVec.ofNat 64 (binary64.round false (k % n) 1) := by
    rw [fmod64, ha, hb]
    exact if_neg (by simp [hn.ne'])
  rw [hmod]
  exact unpack_ofNat_round (holds_mod (by decide) (holds_of_unpack ha) (holds_of_unpack hb) hn)

/-! ## The order of values from 0 up (R13) -/

theorem isNaN64_of_unpack {x : F64} {neg : Bool} {k : Nat} (hx : binary64.unpack x.toNat = .fin neg k) :
    isNaN64 x = false := by
  rw [isNaN64, Bool.eq_false_iff]
  intro hnan
  rw [unpack_eq_nan (f := binary64) (by decide) (by decide) x.isLt hnan] at hx
  cases hx

theorem lt64_eq_not_le64 {x y : F64} (hx : isNaN64 x = false) (hy : isNaN64 y = false) : lt64 x y = !le64 y x := by
  rw [isNaN64] at hx hy
  rw [lt64, le64, FloatFormat.lt, FloatFormat.le, hx, hy]
  simp only [Bool.not_false, Bool.true_and, ← decide_not, not_le]

section
variable {x y : F64} {k n : Nat} (hx : binary64.unpack x.toNat = .fin false k)
  (hy : binary64.unpack y.toNat = .fin false n)
include hx hy

theorem le64_iff_of_unpack : le64 x y = true ↔ k ≤ n := by
  obtain ⟨m, hm, hmx, rfl⟩ := unpack_eq_fin (f := binary64) (by decide) (by decide) x.isLt hx
  obtain ⟨m', hm', hmy, rfl⟩ := unpack_eq_fin (f := binary64) (by decide) (by decide) y.isLt hy
  rw [le64, hmx, hmy, le_withSign_iff (by decide) (by decide) hm hm', (magnitudeValue_strictMono _).le_iff_le]
  exact Int.ofNat_le

theorem lt64_iff_of_unpack : lt64 x y = true ↔ k < n := by
  rw [lt64_eq_not_le64 (isNaN64_of_unpack hx) (isNaN64_of_unpack hy), Bool.not_eq_true', Bool.eq_false_iff, ne_eq,
    le64_iff_of_unpack hy hx, not_le]

end

/-- A finite value at or above a bound from 0 up: only a zero has a sign. -/
theorem value_of_bound_le {bound x : F64} {k n : Nat} {neg : Bool} (hbound : binary64.unpack bound.toNat = .fin false n)
    (hx : binary64.unpack x.toNat = .fin neg k) (h : le64 bound x = true) : (neg = true → k = 0) ∧ n ≤ k := by
  cases neg with
  | false => exact ⟨nofun, (le64_iff_of_unpack hbound hx).mp h⟩
  | true =>
    obtain ⟨m, hm, hmx, rfl⟩ := unpack_eq_fin (f := binary64) (by decide) (by decide) x.isLt hx
    obtain ⟨m', hm', hmb, rfl⟩ := unpack_eq_fin (f := binary64) (by decide) (by decide) bound.isLt hbound
    rw [le64, hmx, hmb, le_withSign_iff (by decide) (by decide) hm' hm] at h
    simp only [Bool.false_eq_true, if_false, if_true] at h
    obtain rfl : m = 0 := by omega
    obtain rfl : m' = 0 := by omega
    exact ⟨fun _ => by decide, le_rfl⟩

theorem exists_unpack_of_isFinite64 {x : F64} (h : isFinite64 x = true) :
    ∃ neg k, binary64.unpack x.toNat = .fin neg k := by
  unfold isFinite64 at h
  split at h
  · exact ⟨_, _, ‹_›⟩
  · cases h

/-! ## One unit more -/

/-- A multiple of a lower power of two does not reach the next power of two with anything below the lower one. -/
theorem log2_add_eq {v u b : Nat} (hv : v ≠ 0) (hdvd : 2 ^ b ∣ v) (hb : b ≤ Nat.log2 v) (hu : u < 2 ^ b) :
    Nat.log2 (v + u) = Nat.log2 v := by
  obtain ⟨c, hc⟩ := hdvd
  obtain ⟨e, he⟩ : ∃ e, Nat.log2 v + 1 = b + e := Nat.exists_eq_add_of_le (by omega)
  have hlower : 2 ^ Nat.log2 v ≤ v := Nat.log2_self_le hv
  have hupper : v < 2 ^ (Nat.log2 v + 1) := Nat.lt_log2_self
  rw [he, Nat.pow_add, hc] at hupper
  have hnext : 2 ^ b * (c + 1) ≤ 2 ^ b * 2 ^ e := Nat.mul_le_mul_left _ (Nat.lt_of_mul_lt_mul_left hupper)
  refine (Nat.log2_eq_iff (by omega)).mpr ⟨by omega, ?_⟩
  rw [he, Nat.pow_add]
  refine lt_of_lt_of_le ?_ hnext
  rw [Nat.mul_succ, ← hc]
  exact Nat.add_lt_add_left hu v

/-- What is below half of the last bit is rounded away. -/
theorem roundMagnitude_add {f : FloatFormat} {v u : Nat} (h : Holds f v) (hlast : lastBit f v ≠ 0)
    (hu : 2 * u < 2 ^ lastBit f v) : f.roundMagnitude (v + u) 1 = f.roundMagnitude v 1 := by
  have hv : v ≠ 0 := by
    rintro rfl
    simp [lastBit] at hlast
  have hlog : Nat.log2 (v + u) = Nat.log2 v := log2_add_eq hv h.exact (Nat.sub_le ..) (by omega)
  have hsame : lastBit f (v + u) = lastBit f v := by rw [lastBit, hlog, lastBit]
  have hround : roundHalfEven (v + u) (2 ^ lastBit f v) = v / 2 ^ lastBit f v := by
    obtain ⟨c, hc⟩ := h.exact
    generalize 2 ^ lastBit f v = unit at hu hc ⊢
    have hdiv : (v + u) / unit = v / unit := by
      rw [hc, Nat.mul_add_div (by omega), Nat.div_eq_of_lt (by omega), Nat.mul_div_cancel_left _ (by omega),
        Nat.add_zero]
    have hmod : (v + u) % unit = u := by rw [hc, Nat.mul_add_mod, Nat.mod_eq_of_lt (by omega)]
    simp only [roundHalfEven, hdiv, hmod, hu, if_true]
  rw [roundMagnitude_eq, roundMagnitude_eq, Nat.div_one, Nat.div_one, hsame, Nat.one_mul, hround,
    roundHalfEven_of_dvd (Nat.two_pow_pos _) h.exact]

theorem unpack_one64 : binary64.unpack one64.toNat = .fin false (2 ^ binary64.scale) := by decide +kernel

theorem holds_two_pow {e : Nat} (he : e < 2046) : Holds binary64 (2 ^ e) := by
  have hlast : lastBit binary64 (2 ^ e) ≤ e + 1 - 53 := lastBit_le_of_lt (Nat.pow_lt_pow_right (by decide) (by omega))
  have hfinite : lastBit binary64 (1 * 2 ^ e) + 1 < 2047 := by rw [Nat.one_mul]; omega
  have h := holds_of_significand (f := binary64) 1 e (by decide) hfinite
  rwa [Nat.one_mul] at h

/-- The unit added to a value below `2^e` is far from the overflow, and to a greater one it is lost. -/
theorem exists_unpack_round_add_unit {k e : Nat} (h : Holds binary64 k) (hlost : binary64.scale + 1 < e - 52)
    (hfar : e + 1 < 2046) : ∃ n,
    binary64.unpack (BitVec.ofNat 64 (binary64.round false (k + 2 ^ binary64.scale) 1)).toNat = .fin false n := by
  by_cases hsmall : k < 2 ^ e
  · have hunit : 2 ^ binary64.scale ≤ 2 ^ e := Nat.pow_le_pow_right Nat.two_pos (by omega)
    have hupper : k + 2 ^ binary64.scale ≤ 2 ^ (e + 1) * 1 := by
      rw [Nat.mul_one, Nat.pow_succ, Nat.mul_two]
      exact Nat.add_le_add hsmall.le hunit
    obtain ⟨n, hn, -⟩ := unpack_round_between (f := binary64) (by decide) (by decide) Nat.one_pos
      (holds_zero (by decide)) (holds_two_pow hfar) (by simp) hupper false
    rw [toNat_round]
    exact ⟨n, hn⟩
  · have hzero : k ≠ 0 := by
      rintro rfl
      exact hsmall (Nat.two_pow_pos _)
    have hlog : e ≤ Nat.log2 k := (Nat.le_log2 hzero).mpr (not_lt.mp hsmall)
    have hlast : e - 52 ≤ lastBit binary64 k := Nat.sub_le_sub_right hlog _
    have hhalf : 2 * 2 ^ binary64.scale < 2 ^ lastBit binary64 k := by
      rw [← Nat.pow_succ']
      exact Nat.pow_lt_pow_right (by decide) (hlost.trans_le hlast)
    have hround : binary64.round false (k + 2 ^ binary64.scale) 1 = binary64.round false k 1 := by
      rw [FloatFormat.round, FloatFormat.round, roundMagnitude_add h (by omega) hhalf]
    rw [hround]
    exact ⟨k, unpack_ofNat_round h⟩

/-- The phase after one unit more is finite and has no sign. -/
theorem exists_unpack_add_one {x : F64} {neg : Bool} {k : Nat} (hx : binary64.unpack x.toNat = .fin neg k)
    (hneg : neg = true → k = 0) : ∃ n, binary64.unpack (add64 x one64).toNat = .fin false n := by
  obtain ⟨hmagnitude, hsign⟩ :=
    DerivedCounts.signedSum_nonneg (b := false) (n := 2 ^ binary64.scale) hneg nofun
  have hpos : k + 2 ^ binary64.scale ≠ 0 := (Nat.add_pos_right k (Nat.two_pow_pos _)).ne'
  have hplus : (signedSum neg k false (2 ^ binary64.scale)).1 = false := Bool.eq_false_iff.mpr (mt hsign hpos)
  have hadd : add64 x one64 = BitVec.ofNat 64 (binary64.round false (k + 2 ^ binary64.scale) 1) := by
    rw [add64, FloatFormat.add, hx, unpack_one64]
    simp only [hmagnitude, hplus]
  rw [hadd]
  exact exists_unpack_round_add_unit (e := 1128) (holds_of_unpack hx) (by decide) (by decide)

/-! ## `AdvancePhase()` (R181) -/

theorem wrapRefresh_eq (s : State) : wrapRefresh s = if s.p 0 = 3#32 then refreshWhite s
    else if s.p 0 = 5#32 then refreshPink s else if s.p 0 = 8#32 then { s with lfsr := lfsrStep s.lfsr } else s := by
  by_cases hwhite : s.p 0 = 3#32
  · rw [if_pos hwhite, wrapRefresh, hwhite]
    rfl
  by_cases hpink : s.p 0 = 5#32
  · rw [if_neg hwhite, if_pos hpink, wrapRefresh, hpink]
    rfl
  by_cases hbit : s.p 0 = 8#32
  · rw [if_neg hwhite, if_neg hpink, if_pos hbit, wrapRefresh, hbit]
    rfl
  rw [if_neg hwhite, if_neg hpink, if_neg hbit]
  rw [← ne_eq, wave_ne_iff _ _ (by decide)] at hwhite hpink hbit
  unfold wrapRefresh
  split
  · exact absurd ‹_› hwhite
  · exact absurd ‹_› hpink
  · exact absurd ‹_› hbit
  · rfl

theorem advancePhase_phase (s : State) : (advancePhase s).phase =
    if le64 s.freq.period (add64 s.phase one64) then fmod64 (add64 s.phase one64) s.freq.period
    else add64 s.phase one64 := by
  simp only [advancePhase]
  split
  · rw [wrapRefresh_state]
  · rfl

theorem advancePhase_freq (s : State) : (advancePhase s).freq = s.freq := by rw [advancePhase_state]

theorem unpack_minPeriod : binary64.unpack minPeriod.toNat = .fin false (2 ^ 1077) := by decide +kernel

theorem unpack_zero64 : binary64.unpack (0#64 : F64).toNat = .fin false 0 := by decide +kernel

/-- The phase is the remainder, which is below the period, or was below it. -/
theorem advancePhase_bounds {s : State} (hperiod : isFinite64 s.freq.period = true)
    (hmin : le64 minPeriod s.freq.period = true) (hphase : isFinite64 s.phase = true)
    (hzero : le64 0#64 s.phase = true) :
    le64 0#64 (advancePhase s).phase = true ∧ lt64 (advancePhase s).phase s.freq.period = true := by
  obtain ⟨sign, k, hk⟩ := exists_unpack_of_isFinite64 hphase
  obtain ⟨m, hm⟩ := exists_unpack_add_one hk (value_of_bound_le unpack_zero64 hk hzero).1
  obtain ⟨neg, n, hn⟩ := exists_unpack_of_isFinite64 hperiod
  obtain ⟨hneg, hlower⟩ := value_of_bound_le unpack_minPeriod hn hmin
  have hpos : 0 < n := (Nat.two_pow_pos _).trans_le hlower
  obtain rfl : neg = false := Bool.eq_false_iff.mpr (mt hneg hpos.ne')
  have hvalue : ∃ v, binary64.unpack (advancePhase s).phase.toNat = .fin false v ∧ v < n := by
    rw [advancePhase_phase]
    split
    · exact ⟨m % n, unpack_fmod64 hm hn hpos, Nat.mod_lt m hpos⟩
    · next hbelow => exact ⟨m, hm, by rwa [le64_iff_of_unpack hn hm, not_le] at hbelow⟩
  obtain ⟨v, hv, hlt⟩ := hvalue
  exact ⟨(le64_iff_of_unpack unpack_zero64 hv).mpr (Nat.zero_le v), (lt64_iff_of_unpack hv hn).mpr hlt⟩

/-- Settles O53: the two cases of `AdvancePhase()`, the wave types, and the exact remainder. -/
theorem phaseStaysBelowPeriod : Obligations.PhaseStaysBelowPeriod := by
  refine ⟨?_, wrapRefresh_eq, fun a b k n => unpack_fmod64, fun s hperiod hmin hphase hzero => ?_⟩
  · rintro s _ rfl
    rfl
  · obtain ⟨hlower, hupper⟩ := advancePhase_bounds hperiod hmin hphase hzero
    exact ⟨hlower, hupper, advancePhase_freq s⟩

end Sys2Proof.PhaseAccumulator
end

section
/-!
The one-bit noise register (45_synth_datapath.md R183). Its step `T` is linear for the bitwise exclusive or and
satisfies `T^15 = T + 1`. Squaring is additive for linear maps that commute, so
`T^(2^(k+4)) = T^(2^(k+1)) + T^(2^k)` for every `k`: a recurrence of order four, which brings `T^(2^15)` back to `T`.
-/

namespace Sys2Proof.OneBitRegister

open Sys2Proof Sys2Proof.Machine

/-! ## The step bit by bit -/

theorem lfsrStep_getLsbD (x : BitVec 15) {k : Nat} (hk : k < 15) : (lfsrStep x).getLsbD k =
    if k = 14 then (x.getLsbD 0 ^^ x.getLsbD 1) else x.getLsbD (k + 1) := by
  simp only [lfsrStep, BitVec.getLsbD_or, BitVec.getLsbD_ushiftRight, BitVec.getLsbD_shiftLeft,
    BitVec.getLsbD_setWidth, BitVec.getLsbD_xor, BitVec.getLsbD_extractLsb']
  by_cases htop : k = 14
  · simp [htop]
  · have hlow : k < 14 := by omega
    simp [htop, hlow, Nat.add_comm]

theorem lfsrStep_xor (x y : BitVec 15) : lfsrStep (x ^^^ y) = lfsrStep x ^^^ lfsrStep y := by
  apply BitVec.eq_of_getLsbD_eq
  intro k hk
  simp only [BitVec.getLsbD_xor, lfsrStep_getLsbD _ hk]
  split
  · rw [Bool.xor_assoc, Bool.xor_assoc, Bool.xor_left_comm (y.getLsbD 0)]
  · rfl

theorem iterate_xor (n : Nat) (x y : BitVec 15) :
    lfsrStep^[n] (x ^^^ y) = lfsrStep^[n] x ^^^ lfsrStep^[n] y := by
  induction n generalizing x y with
  | zero => rfl
  | succ n ih => simp only [Function.iterate_succ_apply, lfsrStep_xor, ih]

/-- Bit `k` is the one that comes out after `k` steps. -/
theorem getLsbD_eq_iterate (x : BitVec 15) {k : Nat} (hk : k < 15) :
    x.getLsbD k = (lfsrStep^[k] x).getLsbD 0 := by
  induction k generalizing x with
  | zero => rfl
  | succ k ih =>
    rw [Function.iterate_succ_apply, ← ih _ (by omega), lfsrStep_getLsbD x (by omega), if_neg (by omega)]

/-! ## The recurrences -/

/-- The bit that comes out 15 steps later is the one that comes out now, xor the one after it. -/
theorem iterate_fifteen_getLsbD_zero (x : BitVec 15) :
    (lfsrStep^[15] x).getLsbD 0 = ((lfsrStep x).getLsbD 0 ^^ x.getLsbD 0) := by
  have hfeedback : (lfsrStep x).getLsbD 14 = (x.getLsbD 0 ^^ x.getLsbD 1) := lfsrStep_getLsbD x (by decide)
  have hnext : (lfsrStep x).getLsbD 0 = x.getLsbD 1 := lfsrStep_getLsbD x (by decide)
  rw [Function.iterate_succ_apply, ← getLsbD_eq_iterate _ (by decide), hfeedback, hnext, Bool.xor_comm]

theorem iterate_fifteen (x : BitVec 15) : lfsrStep^[15] x = lfsrStep x ^^^ x := by
  apply BitVec.eq_of_getLsbD_eq
  intro k hk
  rw [BitVec.getLsbD_xor, getLsbD_eq_iterate _ hk, getLsbD_eq_iterate (lfsrStep x) hk, getLsbD_eq_iterate x hk,
    ← Function.iterate_add_apply, Nat.add_comm, Function.iterate_add_apply, iterate_fifteen_getLsbD_zero,
    ← Function.iterate_succ_apply' lfsrStep, Function.iterate_succ_apply]

/-- Squaring a sum of two powers of the step: the mixed terms are equal and cancel. -/
theorem iterate_double {a b c : Nat} (h : ∀ x, lfsrStep^[c] x = lfsrStep^[a] x ^^^ lfsrStep^[b] x) (x : BitVec 15) :
    lfsrStep^[c * 2] x = lfsrStep^[a * 2] x ^^^ lfsrStep^[b * 2] x := by
  have hmixed : lfsrStep^[b] (lfsrStep^[a] x) = lfsrStep^[a] (lfsrStep^[b] x) := by
    rw [← Function.iterate_add_apply, Nat.add_comm, Function.iterate_add_apply]
  simp only [Nat.mul_two, Function.iterate_add_apply]
  rw [h, h, iterate_xor, iterate_xor, hmixed, BitVec.xor_assoc, ← BitVec.xor_assoc (lfsrStep^[a] (lfsrStep^[b] x)),
    BitVec.xor_self, BitVec.zero_xor]

theorem iterate_two_pow_add_four (k : Nat) (x : BitVec 15) :
    lfsrStep^[2 ^ (k + 4)] x = lfsrStep^[2 ^ (k + 1)] x ^^^ lfsrStep^[2 ^ k] x := by
  induction k generalizing x with
  | zero =>
    have hsixteen : lfsrStep^[16] x = lfsrStep (lfsrStep^[15] x) := Function.iterate_succ_apply' lfsrStep 15 x
    change lfsrStep^[16] x = lfsrStep (lfsrStep x) ^^^ lfsrStep x
    rw [hsixteen, iterate_fifteen, lfsrStep_xor]
  | succ k ih => exact iterate_double ih x

/-- `T^(2^k)` by the recurrence. -/
def jump (x : BitVec 15) : Nat → BitVec 15
  | 0 => lfsrStep x
  | 1 => lfsrStep^[2] x
  | 2 => lfsrStep^[4] x
  | 3 => lfsrStep^[8] x
  | k + 4 => jump x (k + 1) ^^^ jump x k

theorem jump_eq (x : BitVec 15) (k : Nat) : jump x k = lfsrStep^[2 ^ k] x := by
  induction k using jump.induct with
  | case1 => rfl
  | case2 => rfl
  | case3 => rfl
  | case4 => rfl
  | case5 k ih ih' => rw [jump, ih, ih', iterate_two_pow_add_four]

/-- The recurrence comes round after 15 terms: `y^4 + y + 1` has order 15. -/
theorem jump_fifteen (x : BitVec 15) : jump x 15 = jump x 0 := by
  apply BitVec.eq_of_getLsbD_eq
  intro k _
  simp only [jump, BitVec.getLsbD_xor]
  generalize (lfsrStep x).getLsbD k = a
  generalize (lfsrStep^[2] x).getLsbD k = b
  generalize (lfsrStep^[4] x).getLsbD k = c
  generalize (lfsrStep^[8] x).getLsbD k = d
  decide +revert

/-! ## The period -/

theorem iterate_zero_word (n : Nat) : lfsrStep^[n] 0#15 = 0#15 := Function.iterate_fixed (by decide) n

theorem eq_zero_of_lfsrStep_eq_zero {x : BitVec 15} (h : lfsrStep x = 0#15) : x = 0#15 := by
  have hfifteen := iterate_fifteen x
  rwa [Function.iterate_succ_apply, h, iterate_zero_word, BitVec.zero_xor, eq_comm] at hfifteen

theorem lfsrStep_injective : Function.Injective lfsrStep := by
  intro x y h
  have hdifference : lfsrStep (x ^^^ y) = 0#15 := by rw [lfsrStep_xor, h, BitVec.xor_self]
  exact BitVec.xor_eq_zero_iff.mp (eq_zero_of_lfsrStep_eq_zero hdifference)

/-- Every word comes back after `2^15 - 1` steps. -/
theorem iterate_full_period (x : BitVec 15) : lfsrStep^[32767] x = x := by
  apply lfsrStep_injective
  rw [← Function.iterate_succ_apply' lfsrStep]
  exact (jump_eq x 15).symm.trans (jump_fifteen x)

/-- The largest proper divisors of `32767 = 7 * 31 * 151` are no periods of 0x0001, by their binary digits. -/
theorem iterate_ne_of_largest_divisors : lfsrStep^[32767 / 7] 1#15 ≠ 1#15 ∧ lfsrStep^[32767 / 31] 1#15 ≠ 1#15 ∧
    lfsrStep^[32767 / 151] 1#15 ≠ 1#15 := by
  have hseven : 32767 / 7 = 2 ^ 12 + (2 ^ 9 + (2 ^ 6 + (2 ^ 3 + 2 ^ 0))) := by decide
  have hthirtyOne : 32767 / 31 = 2 ^ 10 + (2 ^ 5 + 2 ^ 0) := by decide
  have hlast : 32767 / 151 = 2 ^ 7 + (2 ^ 6 + (2 ^ 4 + (2 ^ 3 + 2 ^ 0))) := by decide
  rw [hseven, hthirtyOne, hlast]
  simp only [Function.iterate_add_apply, ← jump_eq]
  decide

theorem prime_dvd_period {p : Nat} (hp : p.Prime) (h : p ∣ 32767) : p = 7 ∨ p = 31 ∨ p = 151 := by
  have hfactors : 32767 = 7 * 31 * 151 := by decide
  rw [hfactors, hp.dvd_mul, hp.dvd_mul, Nat.prime_dvd_prime_iff_eq hp (by norm_num),
    Nat.prime_dvd_prime_iff_eq hp (by norm_num), Nat.prime_dvd_prime_iff_eq hp (by norm_num), or_assoc] at h
  exact h

/-- A smaller period would divide `32767 / p` for a prime factor `p`. -/
theorem minimalPeriod_one : Function.minimalPeriod lfsrStep 1#15 = 32767 := by
  have hdvd : Function.minimalPeriod lfsrStep 1#15 ∣ 32767 :=
    Function.IsPeriodicPt.minimalPeriod_dvd (iterate_full_period 1#15)
  by_contra hne
  obtain ⟨p, hp, hpdvd⟩ := Nat.exists_prime_and_dvd (n := 32767 / Function.minimalPeriod lfsrStep 1#15)
    fun hone => hne (Nat.eq_of_dvd_of_div_eq_one hdvd hone)
  have hprime : p ∣ 32767 := hpdvd.trans (Nat.div_dvd_of_dvd hdvd)
  have hperiod : lfsrStep^[32767 / p] 1#15 = 1#15 := by
    refine Function.isPeriodicPt_iff_minimalPeriod_dvd.mpr ((Nat.dvd_div_iff_mul_dvd hprime).mpr ?_)
    rw [Nat.mul_comm]
    exact (Nat.dvd_div_iff_mul_dvd hdvd).mp hpdvd
  obtain ⟨hseven, hthirtyOne, hlast⟩ := iterate_ne_of_largest_divisors
  obtain rfl | rfl | rfl := prime_dvd_period hp hprime
  · exact hseven hperiod
  · exact hthirtyOne hperiod
  · exact hlast hperiod

/-- Settles O54: the step by its bits, the period by the recurrence. -/
theorem lfsrHasFullPeriod : Obligations.LfsrHasFullPeriod := by
  refine ⟨fun x k => lfsrStep_getLsbD x, fun s hwave => ?_, by decide, by decide,
    fun x => mt eq_zero_of_lfsrStep_eq_zero, iterate_full_period _, fun n hpos hlt hperiod => ?_⟩
  · rw [wrapRefresh, hwave]
    rfl
  · have hle := Function.IsPeriodicPt.minimalPeriod_le hpos hperiod
    rw [minimalPeriod_one] at hle
    omega

end Sys2Proof.OneBitRegister
end

section
/-!
The clip and the samples of a run (45_synth_datapath.md R202 to R204). With its ends in order the clip is one choice of
three, so a clipped value is an end, lies between the ends, or is a NaN; and a run appends clipped values only.
-/

namespace Sys2Proof.OutputClip

open Sys2Proof Sys2Proof.Machine Sys2Proof.Laws Sys2Proof.AccumulatorCommands Sys2Proof.SynthStep

/-! ## The clip (R202) -/

theorem clip_eq (v : F32) : clip v = if lt32 one32 v then one32 else if lt32 v negOne32 then negOne32 else v := by
  have hends : lt32 one32 negOne32 = false := by decide
  unfold clip
  cases hupper : lt32 one32 v with
  | true => exact if_neg (Bool.eq_false_iff.mp hends)
  | false => rfl

/-- Nothing is above the upper end and below the lower one. -/
theorem clip_of_below {v : F32} (h : lt32 v negOne32 = true) : clip v = negOne32 := by
  have hends : lt32 one32 negOne32 = false := by decide
  have hupper : ¬ lt32 one32 v = true := fun hupper => Bool.eq_false_iff.mp hends (lt32_trans hupper h)
  rw [clip_eq, if_neg hupper, if_pos h]

theorem clip_of_between {v : F32} (hupper : lt32 one32 v = false) (hlower : lt32 v negOne32 = false) : clip v = v := by
  rw [clip_eq, if_neg (Bool.eq_false_iff.mp hupper), if_neg (Bool.eq_false_iff.mp hlower)]

/-- No comparison with a NaN holds. -/
theorem lt32_of_isNaN {x y : F32} (h : isNaN32 x = true ∨ isNaN32 y = true) : lt32 x y = false := by
  rw [Bool.eq_false_iff, ne_eq, lt32_iff]
  rintro ⟨hx, hy, -⟩
  rw [hx, hy] at h
  exact h.elim nofun nofun

/-- Settles O56: the choice of the clip; the infinities by evaluation. -/
theorem clipIsHard : Obligations.ClipIsHard := fun v =>
  ⟨fun hupper => (clip_eq v).trans (if_pos hupper), clip_of_below, clip_of_between,
    fun hnan => clip_of_between (lt32_of_isNaN (.inr hnan)) (lt32_of_isNaN (.inl hnan)), by decide, by decide⟩

/-! ## The samples of a run (R204) -/

/-- Of two values that are no NaNs one is below the other or the other is at most the one. -/
theorem le32_of_not_lt32 {x y : F32} (hx : isNaN32 x = false) (hy : isNaN32 y = false) (h : lt32 y x = false) :
    le32 x y = true := by
  rw [Bool.eq_false_iff, ne_eq, lt32_iff] at h
  exact (SystemCommands.le32_iff x y).mpr ⟨hx, hy, not_lt.mp fun hlt => h ⟨hy, hx, hlt⟩⟩

theorem sampleInRange_clip (v : F32) : sampleInRange (clip v) = true := by
  cases hupper : lt32 one32 v with
  | true =>
    rw [clip_eq, if_pos hupper]
    decide
  | false =>
    cases hlower : lt32 v negOne32 with
    | true =>
      rw [clip_of_below hlower]
      decide
    | false =>
      rw [clip_of_between hupper hlower, sampleInRange]
      cases hnan : isNaN32 v with
      | true => rfl
      | false =>
        rw [le32_of_not_lt32 (by decide) hnan hlower, le32_of_not_lt32 hnan (by decide) hupper]
        rfl

/-- `t` has the samples of `s` and, after them, only samples in range. -/
def AppendsInRange (s t : State) : Prop :=
  ∃ samples, t.acc = s.acc ++ samples ∧ ∀ v ∈ samples, sampleInRange v = true

theorem appendsInRange_of_acc_eq {s t : State} (h : t.acc = s.acc) : AppendsInRange s t :=
  ⟨[], by rw [h, List.append_nil], nofun⟩

theorem AppendsInRange.trans {s t u : State} (h : AppendsInRange s t) (h' : AppendsInRange t u) :
    AppendsInRange s u := by
  obtain ⟨first, ht, hfirst⟩ := h
  obtain ⟨second, hu, hsecond⟩ := h'
  exact ⟨first ++ second, by rw [hu, ht, List.append_assoc],
    fun v hv => (List.mem_append.mp hv).elim (hfirst v) (hsecond v)⟩

theorem AppendsInRange.drop {s t : State} (h : AppendsInRange s t) :
    ∀ v ∈ t.acc.drop s.acc.length, sampleInRange v = true := by
  obtain ⟨samples, hacc, hrange⟩ := h
  rwa [hacc, List.drop_left]

/-- The output stage ends with the clip. -/
theorem iteration_appendsInRange {s : State} (hp : s.status.playing = true) : AppendsInRange s (iteration s) := by
  obtain ⟨-, h⟩ | ⟨-, -, -, hacc⟩ := iteration_ends_or_appends hp
  · exact appendsInRange_of_acc_eq (Iteration.acc_of_datapathState h.2)
  · refine ⟨[appendedSample s], hacc, fun v hv => ?_⟩
    rw [List.mem_singleton.mp hv, appendedSample_eq]
    exact sampleInRange_clip _

theorem runLoop_appendsInRange (fuel : Nat) (s : State) : AppendsInRange s (runLoop fuel s) := by
  induction fuel generalizing s with
  | zero => exact appendsInRange_of_acc_eq rfl
  | succ fuel ih =>
    cases hp : s.status.playing with
    | false =>
      rw [runLoop_ended _ hp]
      exact appendsInRange_of_acc_eq rfl
    | true =>
      rw [runLoop_playing _ hp]
      exact (iteration_appendsInRange hp).trans (ih _)

theorem execSynthStep_appendsInRange {s t : State} (h : execSynthStep s = .next t) : AppendsInRange s t := by
  rw [execSynthStep, fatalGate] at h
  obtain ⟨-, rfl⟩ | ⟨-, h⟩ := check_next h
  · exact appendsInRange_of_acc_eq rfl
  · split at h
    · next hp =>
      obtain rfl := respond_next h
      exact (iteration_appendsInRange hp).trans (appendsInRange_of_acc_eq rfl)
    · obtain rfl := respond_next h
      exact appendsInRange_of_acc_eq rfl

theorem execSynthRun_appendsInRange {s t : State} (h : execSynthRun s = .next t) : AppendsInRange s t := by
  rw [execSynthRun, fatalGate] at h
  obtain ⟨-, rfl⟩ | ⟨-, h⟩ := check_next h
  · exact appendsInRange_of_acc_eq rfl
  · obtain rfl := respond_next h
    exact (runLoop_appendsInRange _ s).trans (appendsInRange_of_acc_eq rfl)

/-- Settles O57: both commands append only what iterations append. -/
theorem appendedSamplesAreInRange : Obligations.AppendedSamplesAreInRange := by
  rintro i s t (rfl | rfl) hexec
  · exact (execSynthStep_appendsInRange hexec).drop
  · exact (execSynthRun_appendsInRange hexec).drop

end Sys2Proof.OutputClip
end

section
/-!
Exceptions (60_exceptions.md R210 to R217). A command is answered by an error, or by a success after which `errflags`
and `fatal` are what the command makes of them: `exec_raises_or_leaves` says this once of every command. With it,
precision, stickiness and the cause of `fatal` are facts about `errorState`; the other statements are single checks.
-/

namespace Sys2Proof.Exceptions

open Sys2Proof Sys2Proof.Machine Sys2Proof.Laws Sys2Proof.Interface

/-! ## What an error writes (R211, R212) -/

theorem code_bounds (e : ErrorCode) : 1 ≤ e.code.toNat ∧ e.code.toNat ≤ 6 := by cases e <;> decide

theorem code_eq_five_iff (e : ErrorCode) : e.code = 5#4 ↔ e = .range :=
  ⟨fun h => code_injective e .range h, fun h => h ▸ rfl⟩

/-- Every error but `E_RANGE` leaves `fatal` as it was. -/
theorem raise_of_ne_range {e : ErrorCode} (h : e ≠ .range) (s : State) :
    raise e s = .next { s with
      status := { s.status with errflags := s.status.errflags ||| e.flag }
      ports := { s.ports with rsp := some { err := e.code, data := 0#64 } } } := by
  rw [raise, errorState, recordError, decide_eq_false h, Bool.or_false]
  rfl

theorem raise_range (s : State) :
    raise .range s = .next { s with
      status := { s.status with errflags := s.status.errflags ||| 0b010000#6, fatal := true }
      ports := { s.ports with rsp := some { err := 5#4, data := 0#64 } } } := by
  rw [raise, errorState, recordError, decide_eq_true rfl, Bool.or_true]
  rfl

/-- An error clears no flag. -/
theorem getLsbD_errflags_errorState {s : State} {k : Nat} (e : ErrorCode)
    (h : s.status.errflags.getLsbD k = true) : (errorState e s).status.errflags.getLsbD k = true := by
  rw [errorState_status, recordError_errflags, BitVec.getLsbD_or, h, Bool.true_or]

/-! ## The fatal gate (R217) -/

/-- Every command but RESET and STATUS_READ begins with the gate. -/
theorem exec_of_fatal {i : Instr} {s : State} (hf : s.status.fatal = true) (hreset : i ≠ .reset)
    (hstatus : i ≠ .statusRead) : exec i s = raise .fatal s := by
  cases i with
  | reset => exact absurd rfl hreset
  | statusRead => exact absurd rfl hstatus
  | _ =>
    simp only [exec, execNop, execErrClear, execStateRead, execMemRead, execParamWrite, execParamRead, execRngSeed,
      execRngNext64, execRngNext32, execRngNextF, execPinkNextV, execPinkNextF, drawCommand, execAccClear,
      execAccAppend, execAccSize, execAccRead, execAccScale, execAccPeakMean, execAccReadPcm, execAccStream,
      execSynthStart, execSynthStep, execSynthRun, fatalGate_closed _ hf]

/-! ## The error bits after a command -/

/-- `errflags` and `fatal`. -/
def errorBits (s : State) : BitVec 6 × Bool := (s.status.errflags, s.status.fatal)

/-- The error bits that a success of `i` leaves: only RESET and ERR_CLEAR write them (R214). -/
def bitsAfter (i : Instr) (s : State) : BitVec 6 × Bool :=
  match i with
  | .reset => (0#6, false)
  | .errClear => ((clearErrors s.status).errflags, s.status.fatal)
  | _ => errorBits s

theorem bitsAfter_of_ne {i : Instr} (s : State) (hreset : i ≠ .reset) (hclear : i ≠ .errClear) :
    bitsAfter i s = errorBits s := by
  unfold bitsAfter
  split
  · exact absurd rfl hreset
  · exact absurd rfl hclear
  · rfl

theorem bitsAfter_fatal {i : Instr} (s : State) (hreset : i ≠ .reset) : (bitsAfter i s).2 = s.status.fatal := by
  unfold bitsAfter
  split
  · exact absurd rfl hreset
  · rfl
  · rfl

/-- `a` raises an error in `s`, or it is a success with these error bits. -/
def RaisesOrLeaves (bits : BitVec 6 × Bool) (s : State) (a : Answer) : Prop :=
  (∃ e, a = raise e s) ∨ ∃ v u, a = respond v u ∧ errorBits u = bits

section
variable {bits : BitVec 6 × Bool} {s : State}

theorem leaves_raise (e : ErrorCode) : RaisesOrLeaves bits s (raise e s) := .inl ⟨e, rfl⟩

theorem leaves_respond {u : State} (v : Word64) (h : errorBits u = bits) : RaisesOrLeaves bits s (respond v u) :=
  .inr ⟨v, u, rfl, h⟩

/-- A check that fails raises in the state it found, so only what follows it counts. -/
theorem leaves_check {e : ErrorCode} {bad : Bool} {rest : State → Answer} (hrest : RaisesOrLeaves bits s (rest s)) :
    RaisesOrLeaves bits s (check e bad s rest) := by
  cases bad with
  | true => exact leaves_raise e
  | false => exact hrest

/-- A table without an entry is an error, too. -/
theorem leaves_elim {α : Type} {e : ErrorCode} {f : α → Answer} (o : Option α)
    (h : ∀ x, RaisesOrLeaves bits s (f x)) : RaisesOrLeaves bits s (o.elim (raise e s) f) := by
  cases o with
  | none => exact leaves_raise e
  | some x => exact h x

theorem leaves_drawCommand {draw : State → Word64 × State} (h : errorBits (draw s).2 = errorBits s) :
    RaisesOrLeaves (errorBits s) s (drawCommand draw s) := by
  rw [drawCommand]
  exact leaves_check <| leaves_check <| leaves_check <| leaves_respond _ h

end

theorem errorBits_of_constants {s t : State} (h : Iteration.constants t = Iteration.constants s) :
    errorBits t = errorBits s :=
  congrArg (fun c : Iteration.Constants => (c.errflags, c.fatal)) h

theorem errorBits_seedRng (seed : Word64) (s : State) : errorBits (seedRng seed s) = errorBits s := by
  rw [seedRng, pinkConstruct_state]
  rfl

theorem errorBits_startRun (s : State) : errorBits (startRun s) = errorBits s := by
  rw [errorBits, Noninterference.startRun_status, errorBits]

theorem errorBits_pinkNextValue (s : State) : errorBits (pinkNextValue s).2 = errorBits s := by
  rw [pinkNextValue_state]
  rfl

/-- The commands past the fatal gate. -/
theorem exec_leaves_of_not_fatal {s : State} (hf : s.status.fatal = false) (i : Instr) :
    RaisesOrLeaves (bitsAfter i s) s (exec i s) := by
  cases i with
  | nop =>
    rw [SystemCommands.exec_nop hf]
    exact leaves_respond _ rfl
  | reset => exact leaves_respond _ rfl
  | statusRead => exact leaves_respond _ rfl
  | errClear =>
    rw [SystemCommands.exec_errClear hf]
    exact leaves_respond _ rfl
  | stateRead number =>
    rw [SystemCommands.exec_stateRead hf]
    exact leaves_elim _ fun v => leaves_respond v rfl
  | memRead space index =>
    rw [SystemCommands.exec_memRead hf]
    exact leaves_elim _ fun _ => leaves_check (leaves_respond _ rfl)
  | paramWrite number value =>
    rw [SystemCommands.exec_paramWrite hf]
    exact leaves_elim _ fun _ => leaves_check <| leaves_check <| leaves_respond _ rfl
  | paramRead number =>
    rw [SystemCommands.exec_paramRead hf]
    exact leaves_elim _ fun _ => leaves_respond _ rfl
  | rngSeed seed =>
    rw [exec, execRngSeed, fatalGate_pass _ hf]
    exact leaves_check (leaves_respond _ (errorBits_seedRng seed s))
  | rngNext64 => exact leaves_drawCommand rfl
  | rngNext32 => exact leaves_drawCommand rfl
  | rngNextF => exact leaves_drawCommand rfl
  | pinkNextV => exact leaves_drawCommand (errorBits_pinkNextValue s)
  | pinkNextF => exact leaves_drawCommand (errorBits_pinkNextValue s)
  | accClear =>
    rw [exec, execAccClear, fatalGate_pass _ hf]
    exact leaves_check (leaves_respond _ rfl)
  | accAppend sample =>
    rw [exec, execAccAppend, fatalGate_pass _ hf]
    exact leaves_check <| leaves_check <| leaves_respond _ rfl
  | accSize =>
    rw [AccumulatorCommands.exec_accSize hf]
    exact leaves_respond _ rfl
  | accRead index =>
    rw [AccumulatorCommands.exec_accRead hf]
    exact leaves_elim _ fun _ => leaves_respond _ rfl
  | accScale factor =>
    rw [exec, execAccScale, fatalGate_pass _ hf]
    exact leaves_check (leaves_respond _ rfl)
  | accPeakMean =>
    rw [AccumulatorCommands.exec_accPeakMean hf]
    exact leaves_respond _ rfl
  | accReadPcm format index =>
    rw [AccumulatorCommands.exec_accReadPcm hf]
    exact leaves_elim _ fun _ => leaves_elim _ fun _ => leaves_respond _ rfl
  | accStream format =>
    rw [AccumulatorCommands.exec_accStream hf]
    exact leaves_elim _ fun _ => leaves_respond _ rfl
  | synthStart =>
    rw [exec, execSynthStart, fatalGate_pass _ hf]
    exact leaves_check (leaves_respond _ (errorBits_startRun s))
  | synthStep =>
    cases hp : s.status.playing with
    | true =>
      rw [exec, execSynthStep, fatalGate_pass _ hf, if_pos hp]
      exact leaves_respond _ (errorBits_of_constants (SynthStep.iteration_constants hp))
    | false =>
      rw [SynthStep.exec_synthStep_idle hf hp]
      exact leaves_respond _ rfl
  | synthRun =>
    rw [SynthRun.exec_synthRun hf]
    exact leaves_respond _ (errorBits_of_constants (SynthRun.runLoop_constants _ s))

/-- What a command can answer, and what its success leaves of the error bits. -/
theorem exec_raises_or_leaves (i : Instr) (s : State) : RaisesOrLeaves (bitsAfter i s) s (exec i s) := by
  cases hf : s.status.fatal with
  | false => exact exec_leaves_of_not_fatal hf i
  | true =>
    by_cases hreset : i = .reset
    · subst hreset
      exact leaves_respond _ rfl
    by_cases hstatus : i = .statusRead
    · subst hstatus
      exact leaves_respond _ rfl
    rw [exec_of_fatal hf hreset hstatus]
    exact leaves_raise _

/-- A word is answered by an error, or it decodes to a command that succeeds. -/
theorem execWord_raises_or_leaves (w : CommandWord) (s : State) :
    (∃ e, execWord w s = raise e s) ∨
    ∃ i v u, decode w = .ok i ∧ execWord w s = respond v u ∧ errorBits u = bitsAfter i s := by
  cases h : decode w with
  | error d => exact .inl ⟨_, execWord_of_decode_error s h⟩
  | ok i =>
    rw [execWord_of_decode s h]
    exact (exec_raises_or_leaves i s).imp_right fun ⟨v, u, hexec, hbits⟩ => ⟨i, v, u, rfl, hexec, hbits⟩

/-! ## Precision, and what sets `fatal` (R211, R212, R216) -/

/-- Settles O8: only an error has a nonzero code, and `errorState` is what it leaves. -/
theorem errorsArePrecise : Obligations.ErrorsArePrecise := by
  intro w s t r hexec hrsp hcode
  obtain ⟨e, herr⟩ | ⟨i, v, u, -, hok, -⟩ := execWord_raises_or_leaves w s
  · obtain rfl := raise_next (herr.symm.trans hexec)
    obtain rfl : { err := e.code, data := 0#64 } = r := Option.some.inj hrsp
    obtain ⟨hlower, hupper⟩ := code_bounds e
    refine ⟨rfl, hlower, hupper, ?_⟩
    simp only [code_eq_five_iff]
    rfl
  · obtain rfl := respond_next (hok.symm.trans hexec)
    obtain rfl : { err := 0#4, data := v } = r := Option.some.inj hrsp
    exact absurd rfl hcode

/-- Settles O12: an error sets `fatal` by its code, and a success of any command but RESET keeps it. -/
theorem fatalIsSetByRangeErrorsOnly : Obligations.FatalIsSetByRangeErrorsOnly := by
  intro i s t r hexec hrsp hreset
  obtain ⟨e, herr⟩ | ⟨v, u, hok, hbits⟩ := exec_raises_or_leaves i s
  · obtain rfl := raise_next (herr.symm.trans hexec)
    obtain rfl : { err := e.code, data := 0#64 } = r := Option.some.inj hrsp
    simp only [errorState_status, recordError_fatal, code_eq_five_iff]
  · obtain rfl := respond_next (hok.symm.trans hexec)
    obtain rfl : { err := 0#4, data := v } = r := Option.some.inj hrsp
    calc u.status.fatal
      _ = s.status.fatal := (congrArg Prod.snd hbits).trans (bitsAfter_fatal s hreset)
      _ = (s.status.fatal || decide (0#4 = 5#4)) := (Bool.or_false _).symm

/-! ## Stickiness (R214) -/

section
variable {w : CommandWord} {s t : State}

theorem errflags_kept (hexec : execWord w s = .next t) (hreset : decode w ≠ .ok .reset)
    (hclear : decode w ≠ .ok .errClear) :
    (∃ e, t = errorState e s) ∨ t.status.errflags = s.status.errflags := by
  obtain ⟨e, herr⟩ | ⟨i, v, u, hi, hok, hbits⟩ := execWord_raises_or_leaves w s
  · exact .inl ⟨e, raise_next (herr.symm.trans hexec)⟩
  · obtain rfl := respond_next (hok.symm.trans hexec)
    have hsame := bitsAfter_of_ne s (fun h => hreset (h ▸ hi)) fun h => hclear (h ▸ hi)
    exact .inr (congrArg Prod.fst (hbits.trans hsame))

/-- ERR_CLEAR behind the closed gate clears nothing. -/
theorem errflags_sticky (hexec : execWord w s = .next t) (hreset : decode w ≠ .ok .reset)
    (hgate : decode w = .ok .errClear → s.status.fatal = true) {k : Nat}
    (hk : s.status.errflags.getLsbD k = true) : t.status.errflags.getLsbD k = true := by
  by_cases hclear : decode w = .ok .errClear
  · rw [execWord_of_decode s hclear, exec_of_fatal (hgate hclear) (by decide) (by decide)] at hexec
    obtain rfl := raise_next hexec
    exact getLsbD_errflags_errorState _ hk
  · obtain ⟨e, rfl⟩ | hsame := errflags_kept hexec hreset hclear
    · exact getLsbD_errflags_errorState _ hk
    · rwa [hsame]

end

/-- Settles O11: errors add to the flags, a success keeps them, ERR_CLEAR masks them, and both hard resets clear
them. -/
theorem errorFlagsAreSticky : Obligations.ErrorFlagsAreSticky := by
  refine ⟨fun w s t hexec => ⟨fun hreset hgate k => errflags_sticky hexec hreset hgate,
    fun hreset hclear r hrsp hcode => ?_, fun hclear hf => ?_, fun hreset => ?_⟩, fun s t x rest hx hrst hstep => ?_⟩
  · obtain ⟨e, rfl⟩ | hsame := errflags_kept hexec hreset hclear
    · obtain rfl : { err := e.code, data := 0#64 } = r := Option.some.inj hrsp
      exact absurd hcode (code_ne_zero e)
    · exact hsame
  · rw [execWord_of_decode s hclear, SystemCommands.exec_errClear hf] at hexec
    obtain rfl := respond_next hexec
    exact SystemCommands.getLsbD_clearErrors s.status
  · rw [execWord_of_decode s hreset] at hexec
    obtain rfl := respond_next hexec
    rfl
  · rw [SystemCommands.step_rst hx hrst] at hstep
    obtain rfl := Host.Outcome.next.inj hstep
    rfl

/-! ## Illegal words and the fatal gate (R215, R217) -/

section
variable {w : CommandWord} {s : State}

theorem illegalError_of_open (h : s.status.fatal = false ∨ opField w = 0x01#8 ∨ opField w = 0x02#8) :
    illegalError w s = .illegal := by
  refine if_neg fun ⟨hf, hreset, hstatus⟩ => ?_
  obtain h | h | h := h
  · exact absurd hf (Bool.eq_false_iff.mp h)
  · exact hreset h
  · exact hstatus h

theorem illegalError_of_gated (hf : s.status.fatal = true) (hreset : opField w ≠ 0x01#8)
    (hstatus : opField w ≠ 0x02#8) : illegalError w s = .fatal :=
  if_pos ⟨hf, hreset, hstatus⟩

theorem exists_decode_error (h : wordWellFormed w = false) : ∃ e, decode w = .error e := by
  cases hd : decode w with
  | error e => exact ⟨e, rfl⟩
  | ok i => exact absurd ((Encoding.exists_decode_iff w).mp ⟨i, hd⟩) (Bool.eq_false_iff.mp h)

/-- `op` tells the command: it is the encoder's. -/
theorem opField_of_decode {i : Instr} (h : decode w = .ok i) : opField w = opField (encode i) := by
  rw [(Encoding.encodeInvertsDecode w i h).1]

/-- The gate is closed to every word, legal or not, whose `op` is neither RESET's nor STATUS_READ's. -/
theorem execWord_of_gated (hf : s.status.fatal = true) (hreset : opField w ≠ 0x01#8) (hstatus : opField w ≠ 0x02#8) :
    execWord w s = raise .fatal s := by
  cases h : decode w with
  | error e => rw [execWord_of_decode_error s h, illegalError_of_gated hf hreset hstatus]
  | ok i =>
    have hop := opField_of_decode h
    rw [execWord_of_decode s h]
    refine exec_of_fatal hf ?_ ?_
    · rintro rfl
      exact hreset hop
    · rintro rfl
      exact hstatus hop

/-- RESET and STATUS_READ have no operands. -/
theorem decode_of_operands (hop : opField w = 0x01#8 ∨ opField w = 0x02#8)
    (hfields : idxField w ≠ 0#8 ∨ dataField w ≠ 0#64) : decode w = .error (.mustBeZero (opField w)) := by
  obtain ⟨c, hread⟩ : ∃ c, Encoding.reading (opField w) = some (.n c) := by
    obtain hop | hop := hop <;> rw [hop] <;> exact ⟨_, rfl⟩
  exact Encoding.decode_of_not_unusedZero hread fun ⟨hidx, hdata⟩ => hfields.elim (· hidx) (· hdata)

end

/-- Settles O9: the word decodes to nothing, and the gate is open or closed to it. -/
theorem illegalWordsAreAnswered : Obligations.IllegalWordsAreAnswered := by
  intro w s hw
  obtain ⟨e, h⟩ := exists_decode_error hw
  rw [execWord_of_decode_error s h]
  refine ⟨fun hopen => ?_, fun hf hreset hstatus => ?_⟩
  · rw [illegalError_of_open hopen, raise_of_ne_range (by decide)]
    rfl
  · rw [illegalError_of_gated hf hreset hstatus, raise_of_ne_range (by decide)]
    rfl

/-- Settles O10: the gated words, the two commands past the gate, and the malformed words with their `op`. -/
theorem fatalGateClosesEverything : Obligations.FatalGateClosesEverything := by
  refine fun w s hf => ⟨fun hreset hstatus => ?_, ?_, ?_, fun hop hfields => ?_⟩
  · rw [execWord_of_gated hf hreset hstatus, raise_of_ne_range (by decide)]
    rfl
  · rintro rfl
    exact execWord_of_decode s (Encoding.decodeInvertsEncode .statusRead rfl)
  · rintro rfl
    exact execWord_of_decode s (Encoding.decodeInvertsEncode .reset rfl)
  · rw [execWord_of_decode_error s (decode_of_operands hop hfields), illegalError_of_open (.inr hop),
      raise_of_ne_range (by decide)]
    rfl

/-! ## Single checks (R211, R216; 70_reset_and_hazards.md R233) -/

/-- There is a format for every code up to 4 (43_accumulator.md R137). -/
theorem exists_formatOfCode {format : BitVec 8} (h : format.toNat ≤ 4) : ∃ f, SampleFormat.ofCode format = some f := by
  unfold SampleFormat.ofCode
  generalize format.toNat = code at h ⊢
  interval_cases code <;> exact ⟨_, rfl⟩

/-- Settles O13: the sample is not there, and the gate is closed to the run afterwards. -/
theorem outOfRangeReadIsFatal : Obligations.OutOfRangeReadIsFatal := by
  rintro s t format index hf hindex hformat rfl
  obtain ⟨f, hcode⟩ := exists_formatOfCode hformat
  have hnone : s.acc[index.toNat]? = none := List.getElem?_eq_none hindex
  refine ⟨?_, ?_, exec_of_fatal rfl (by decide) (by decide), exec_of_fatal rfl (by decide) (by decide)⟩
  · rw [AccumulatorCommands.exec_accRead hf, hnone, Option.elim_none, raise_range]
  · rw [AccumulatorCommands.exec_accReadPcm hf, hcode, Option.elim_some, hnone, Option.elim_none, raise_range]

section
variable {s : State} (hf : s.status.fatal = false)
include hf

theorem drawCommand_unseeded (draw : State → Word64 × State) (hs : s.status.seeded = false) :
    drawCommand draw s = raise .state s := by
  rw [drawCommand, fatalGate_pass _ hf, seededGate_unseeded _ hs]

/-- The seed is checked before the run, with the same error. -/
theorem drawCommand_playing (draw : State → Word64 × State) (hp : s.status.playing = true) :
    drawCommand draw s = raise .state s := by
  cases hs : s.status.seeded with
  | false => exact drawCommand_unseeded hf draw hs
  | true => rw [drawCommand, fatalGate_pass _ hf, seededGate_pass _ hs, idleCheck_playing _ hp]

theorem gate_idleCheck_playing (rest : State → Answer) (hp : s.status.playing = true) :
    (fatalGate s fun s => idleCheck s rest) = raise .state s := by
  rw [fatalGate_pass _ hf, idleCheck_playing _ hp]

theorem execSynthStart_unseeded (hs : s.status.seeded = false) : execSynthStart s = raise .state s := by
  rw [execSynthStart, fatalGate_pass _ hf, seededGate_unseeded _ hs]

end

/-- Settles O14: in each list the five draws are refused as draws, and the others by their own check. -/
theorem stateChecksRefuse : Obligations.StateChecksRefuse := by
  refine ⟨fun s number value sample factor seed hf hp hnumber hlegal => ?_, fun s hf hs => ?_⟩
  · obtain ⟨-, hwrite⟩ := SystemCommands.paramWriteWritesOneRegister s number value hf
    obtain ⟨-, hplaying, -⟩ := hwrite hnumber
    simp only [List.forall_mem_cons]
    exact ⟨hplaying hlegal hp, gate_idleCheck_playing hf _ hp, drawCommand_playing hf _ hp,
      drawCommand_playing hf _ hp, drawCommand_playing hf _ hp, drawCommand_playing hf _ hp,
      drawCommand_playing hf _ hp, gate_idleCheck_playing hf _ hp, gate_idleCheck_playing hf _ hp,
      gate_idleCheck_playing hf _ hp, nofun⟩
  · simp only [List.forall_mem_cons]
    exact ⟨drawCommand_unseeded hf _ hs, drawCommand_unseeded hf _ hs, drawCommand_unseeded hf _ hs,
      drawCommand_unseeded hf _ hs, drawCommand_unseeded hf _ hs, execSynthStart_unseeded hf hs, nofun⟩

end Sys2Proof.Exceptions
end
